-- ==== Sys2Proof/Word.lean ====
section
/-! DEFINITION. The words of the block: names for the bit vectors that the spec treats as bits. -/

namespace Sys2Proof

/-- A command word, 64 bits: OP, RSV, B, A (spec/30_encoding.md R80). -/
abbrev Command := BitVec 64

/-- The RESULT half of a response, 64 bits (R86). -/
abbrev Result := BitVec 64

/-- The 16-bit two's-complement pattern of a Sample (spec/00_scope.md R5, R14). -/
abbrev Sample := BitVec 16

/-- A 32-bit entry address of the wavetable memory WT; it counts entries, not bytes (spec/20_memory.md R60). -/
abbrev EntryAddr := BitVec 32

/-- A frequency or sample rate in millihertz, unsigned 32 bits (R7). -/
abbrev MilliHertz := BitVec 32

/-- A derived coefficient register, 64 bits (R7). -/
abbrev Coefficient := BitVec 64

/-- One byte of the byte-addressed platform memory that stores WT (R62). -/
abbrev Byte := BitVec 8

end Sys2Proof
end

