-- ==== Sys2Proof/Config.lean ====
section
/-! DEFINITION. What an implementation fixes (spec/00_scope.md R5, R6) and the free values. -/

namespace Sys2Proof

/-- `OSC_SCALER` (R6, R150): which scaler path is built. -/
inductive OscScaler where
  | exchange
  | direct
deriving DecidableEq, Repr

/-- `FLT_OVERFLOW` (R6, R195): what cutting a filter step back to 16 bits does. -/
inductive FltOverflow where
  | wrap
  | saturate
deriving DecidableEq, Repr

/-- `DIV_ROUND` (R6, R11): which way `divn` rounds a negative quotient. -/
inductive DivRound where
  | towardZero
  | floor
deriving DecidableEq, Repr

/-- `WT_BYTE_ORDER` (R62): which byte of an entry lies at byte offset `2a`. -/
inductive ByteOrder where
  | little
  | big
deriving DecidableEq, Repr

/-- The parameters R6 leaves `OPEN`.  They are plain data of the machine's state and no step changes
them, so a statement about every state holds for every value of them (log entry 3). -/
structure Params where
  /-- `WT_SIZE`, the number of entries of WT, 1 to 2^32. -/
  wtSize      : Nat
  /-- `OSC_RESET_REPEAT`, the flavor's repeat flag. -/
  resetRepeat : Bool
  /-- `OSC_RESET_TBASE`, the base of the flavor's default table. -/
  resetTbase  : EntryAddr
  /-- `OSC_RESET_TLEN`, the length of the flavor's default table. -/
  resetTlen   : BitVec 16
deriving DecidableEq, Repr

/-- The domains R6 gives: only `WT_SIZE` has one that the type does not already enforce. -/
abbrev Params.wf (p : Params) : Prop := 1 ≤ p.wtSize ∧ p.wtSize ≤ 4294967296

namespace Config

/-- `PHI_MAX` = 2^20 (R5). -/
def phiMax : Nat := 1048576

/-- `SAMPLE_NORM` = 32768 (R5). -/
def sampleNorm : Nat := 32768

/-- `SAMPLE_MIN` (R5). -/
def sampleMin : Int := -32768

/-- `SAMPLE_MAX` (R5). -/
def sampleMax : Int := 32767

/-- `OSC_NORM` = 2^26 (R6). -/
def oscNorm : Nat := 67108864

/-- `FLT_NORM` = 2^26, the same constant as `OSC_NORM` (R6, spec/90_conflicts.md C10). -/
def fltNorm : Nat := 67108864

/-- This hardware's scaler path (R6, C4). -/
def oscScaler : OscScaler := .exchange

/-- This hardware's filter overflow policy (R6, R195, C7). -/
def fltOverflow : FltOverflow := .wrap

/-- This hardware's rounding of signed division (R6, R11). -/
def divRound : DivRound := .towardZero

/-- The byte order in which a byte-addressed platform stores an entry (R62). -/
def wtByteOrder : ByteOrder := .little

/-- `LFSR16_MASK` (R6). -/
def lfsr16Mask : BitVec 16 := 0xB400#16

/-- `LFSR16_SEED` (R6). -/
def lfsr16Seed : BitVec 16 := 0xACE1#16

/-- `LFSR32_MASK` (R6). -/
def lfsr32Mask : BitVec 32 := 0x80200003#32

/-- `LFSR32_SEED` (R6). -/
def lfsr32Seed : BitVec 32 := 0x0000ACE1#32

/-- `RESET_RATE` = 44 100 000 mHz (R6). -/
def resetRate : MilliHertz := 44100000#32

/-- The values that `State.reset` gives the OPEN parameters.  DESIGN CHOICE, unsafe (log entry 4): the spec
leaves them open; these are the ones its vectors assume (spec/95_test_vectors.md, Conventions). -/
def openParams : Params :=
  { wtSize := 4096, resetRepeat := false, resetTbase := 0#32, resetTlen := 0#16 }

/-- The draw of R67: the value of a WT read that overlaps a host write to the same entry.  A free value, one
per read, numbered by `State.draws`; it has no body (log entry 6). -/
opaque freeSample : Nat → Sample

/-- What the byte of WT at a byte offset holds before the host has written it.  A free value: the spec
gives WT no power-on contents (N7); it has no body (log entry 5). -/
opaque wtPowerOn : Nat → Byte

end Config

end Sys2Proof
end

