-- ==== Sys2Proof/Machine/Operands.lean ====
section
/-! DEFINITION. Values: operands as integers, the arithmetic primitives (spec/00_scope.md R11) and the packing
of results (spec/30_encoding.md R88). -/

namespace Sys2Proof.Machine

open Sys2Proof

/-- `sext_16`: a Sample's pattern as a signed integer (R11). -/
def sext16 (v : Sample) : Int := v.toInt

/-- The Sample whose pattern is `v mod 2^16` (R11, R88). -/
def toSample (v : Int) : Sample := BitVec.ofInt 16 v

/-- `zext_64`: a field's bits with zeros above (R11). -/
def zext64 {n : Nat} (v : BitVec n) : BitVec 64 := v.setWidth 64

/-- `wrap16`: two's-complement truncation to the Sample range (R11). -/
def wrap16 (v : Int) : Int := sext16 (toSample v)

/-- `clamp16`: saturation to the Sample range (R11). -/
def clamp16 (v : Int) : Int := max Config.sampleMin (min Config.sampleMax v)

/-- `divn`: signed division by a positive power of two, rounded as `round` says (R11). -/
def divn (round : DivRound) (a : Int) (n : Nat) : Int :=
  match round with
  | .towardZero => a.sign * ((a.natAbs / n : Nat) : Int)
  | .floor => a.fdiv n

/-- `R` of R190: cut a filter step back to the Sample range by the overflow policy (R195). -/
def cut (policy : FltOverflow) (v : Int) : Int :=
  match policy with
  | .wrap => wrap16 v
  | .saturate => clamp16 v

/-- A Sample result: its pattern in bits 15:0, bits 63:16 zero (R88). -/
def sampleResult (v : Int) : Result := zext64 (toSample v)

/-- A predicate result: bit 0 (R88). -/
def flagResult (b : Bool) : Result := zext64 (BitVec.ofBool b)

/-- `FLT_TICK`'s result: notch in bits 63:48, high-pass 47:32, band-pass 31:16, low-pass 15:0 (R88, R190). -/
def filterResult (notch hp bp lp : Int) : Result :=
  toSample notch ++ toSample hp ++ toSample bp ++ toSample lp

/-- A register of `n` bits written with a natural number, which the rules never let exceed it (R10; in
states no run reaches the low bits are kept, log entry 9). -/
def regOfNat (n v : Nat) : BitVec n := BitVec.ofNat n v

end Sys2Proof.Machine
end

