-- ==== Sys2Proof/Syntax.lean ====
section
/-! DEFINITION. The commands as syntax: mnemonics, operand forms, register names, instructions. -/

namespace Sys2Proof

/-- The 24 mnemonics of the opcode map (spec/30_encoding.md R83). -/
inductive Mnemonic where
  | sadd | smul | snmul | sclip
  | lfsr16Next | lfsr32Next | noiseTick
  | oscTick | oscStart | oscStop | oscReset | oscResetStart | oscStopReset
  | oscSetFreq | oscSetRate | oscGetRate | oscSetTable | oscSetRepeat
  | fltTick | fltSetFreq | fltSetRes | fltSetRate | fltGetRate
  | rdreg
deriving DecidableEq, Repr

/-- The operand forms of R82.  The form without operands is `noOperand`. -/
inductive Form where
  | noOperand | ss | s | u32 | tbl | bit | reg
deriving DecidableEq, Repr

/-- The registers `RDREG` reads, by name (spec/10_state.md R23, spec/45_system.md R210). -/
inductive Reg where
  | faultCause | faultInfo
  | oscCtrl | oscPhase | oscFreq | oscRate | oscAlpha | oscDelta | oscTbase | oscTlen | oscIndex
  | fltLp | fltBp | fltHp | fltFreq | fltRate | fltFt | fltQinv | fltNotch
  | lfsr16 | lfsr32
deriving DecidableEq, Repr

/-- One command, decoded: a constructor for each row of the opcode map, with its operands as R82 assembles
them.  A Sample operand is its two's-complement pattern. -/
inductive Instr where
  | sadd (a b : Sample)
  | smul (a b : Sample)
  | snmul (a b : Sample)
  | sclip (a : Sample)
  | lfsr16Next
  | lfsr32Next
  | noiseTick
  | oscTick
  | oscStart
  | oscStop
  | oscReset
  | oscResetStart
  | oscStopReset
  | oscSetFreq (f : MilliHertz)
  | oscSetRate (r : MilliHertz)
  | oscGetRate
  | oscSetTable (base : EntryAddr) (len : BitVec 16)
  | oscSetRepeat (f : Bool)
  | fltTick (x : Sample)
  | fltSetFreq (f : MilliHertz)
  | fltSetRes (r : BitVec 32)
  | fltSetRate (r : MilliHertz)
  | fltGetRate
  | rdreg (r : BitVec 8)
deriving DecidableEq, Repr

/-- The mnemonic of an instruction. -/
def Instr.mnemonic : Instr → Mnemonic
  | .sadd _ _ => .sadd
  | .smul _ _ => .smul
  | .snmul _ _ => .snmul
  | .sclip _ => .sclip
  | .lfsr16Next => .lfsr16Next
  | .lfsr32Next => .lfsr32Next
  | .noiseTick => .noiseTick
  | .oscTick => .oscTick
  | .oscStart => .oscStart
  | .oscStop => .oscStop
  | .oscReset => .oscReset
  | .oscResetStart => .oscResetStart
  | .oscStopReset => .oscStopReset
  | .oscSetFreq _ => .oscSetFreq
  | .oscSetRate _ => .oscSetRate
  | .oscGetRate => .oscGetRate
  | .oscSetTable _ _ => .oscSetTable
  | .oscSetRepeat _ => .oscSetRepeat
  | .fltTick _ => .fltTick
  | .fltSetFreq _ => .fltSetFreq
  | .fltSetRes _ => .fltSetRes
  | .fltSetRate _ => .fltSetRate
  | .fltGetRate => .fltGetRate
  | .rdreg _ => .rdreg

end Sys2Proof
end

