-- ==== Sys2Proof/Machine/State.lean ====
section
/-! DEFINITION. The state of the block and of its host, and the state right after reset
(spec/10_state.md R23, spec/70_reset_and_hazards.md R250).  Plain data throughout. -/

namespace Sys2Proof.Machine

open Sys2Proof

/-- Why the machine stops. -/
inductive Fault where
  /-- Raised by a host write of WT (`landWrites`) to an entry address that does not exist (R60: entries
  `a < WT_SIZE` exist and the rest do not).  No command raises it.  Safe: the model stops (log entry 10). -/
  | wtEntryAbsent
deriving DecidableEq, Repr

/-- Why a step has no meaning. -/
inductive Refusal where
  /-- Raised by an arm of `exec` whose instruction is not modelled.  Every instruction of this block is, so
  nothing raises it.  Safe. -/
  | notModelled (mnemonic : String)
deriving DecidableEq, Repr

/-- `STATUS` of a response (spec/30_encoding.md R87). -/
inductive Status where
  | ok
  | noSample
  | rejected
  | illegal
  | fault
deriving DecidableEq, Repr

/-- The answer to a command: `STATUS` and `RESULT` (R86). -/
structure Response where
  status : Status
  result : Result
deriving DecidableEq, Repr

/-- One host write of one WT entry (spec/20_memory.md R60). -/
structure WtWrite where
  addr  : EntryAddr
  value : Sample
deriving DecidableEq, Repr

/-- What the host can do to the block (spec/10_state.md R20): issue a command, write WT, assert reset. -/
inductive HostEvent where
  /-- Issue a word and wait for its response; `overlapping` are the WT writes that the host makes while the
  command executes (R67; a host that keeps R240 (2) makes none). -/
  | command (word : Command) (overlapping : List WtWrite)
  /-- Issue a word and assert reset before it completes (R252). -/
  | abandonedCommand (word : Command) (overlapping : List WtWrite)
  /-- Write one WT entry between commands (R60). -/
  | writeWt (write : WtWrite)
  /-- Assert reset between commands (R250). -/
  | reset
deriving DecidableEq, Repr

/-- The fault registers (R24, R25). -/
structure FaultRegs where
  /-- `FAULT_CAUSE`, 4 bits: 0 NONE, 1 INDEX_RANGE, 2 WT_ADDR. -/
  cause : BitVec 4
  /-- `FAULT_INFO`, 64 bits. -/
  info  : BitVec 64
deriving DecidableEq, Repr

/-- The oscillator's registers (R26 to R35). -/
structure OscRegs where
  /-- `OSC_CTRL.RUNNING`: true = Running. -/
  running : Bool
  /-- `OSC_CTRL.REPEAT`: true = Looping, false = OneShot. -/
  looping : Bool
  /-- `OSC_PHASE`. -/
  phase   : BitVec 32
  /-- `OSC_FREQ`. -/
  freq    : MilliHertz
  /-- `OSC_RATE`. -/
  rate    : MilliHertz
  /-- `OSC_ALPHA`, derived. -/
  alpha   : Coefficient
  /-- `OSC_DELTA`, derived. -/
  delta   : Coefficient
  /-- `OSC_TBASE`. -/
  tbase   : EntryAddr
  /-- `OSC_TLEN`. -/
  tlen    : BitVec 16
  /-- `OSC_INDEX`. -/
  index   : BitVec 16
deriving DecidableEq, Repr

/-- The filter's registers (R36 to R42); the notch output is derived, not stored (R43). -/
structure FltRegs where
  /-- `FLT_LP`. -/
  lp   : Sample
  /-- `FLT_BP`. -/
  bp   : Sample
  /-- `FLT_HP`. -/
  hp   : Sample
  /-- `FLT_FREQ`. -/
  freq : MilliHertz
  /-- `FLT_RATE`. -/
  rate : MilliHertz
  /-- `FLT_FT`, derived. -/
  ft   : Coefficient
  /-- `FLT_QINV`, derived. -/
  qinv : Coefficient
deriving DecidableEq, Repr

/-- WT as a byte-addressed platform stores it (R62): bytes the host has written, by byte offset, in the
form `Memory.wf`.  An unlisted byte holds no value of the model's (log entry 5). -/
abbrev Memory := List Host.Cell

/-- The canonical form of a memory: offsets strictly rising.  An unlisted byte reads as no value, so no
listed byte equals what an unlisted one reads as. -/
abbrev Memory.wf (m : Memory) : Prop := m.Pairwise (fun x y => x.1 < y.1)

/-- The block (`fault` to `lfsr32`: all of R23), the wavetable memory, and what the model holds of the
host and the platform. -/
structure State where
  /-- `FAULT_CAUSE`, `FAULT_INFO`. -/
  fault    : FaultRegs
  /-- The oscillator. -/
  osc      : OscRegs
  /-- The filter. -/
  flt      : FltRegs
  /-- `LFSR16` (R44). -/
  lfsr16   : BitVec 16
  /-- `LFSR32` (R45). -/
  lfsr32   : BitVec 32
  /-- WT, the host's (R60). -/
  wt       : Memory
  /-- The OPEN parameters of R6; no step changes them. -/
  params   : Params
  /-- What the host will do, first event first (R20, R22); the model's own field (log entry 1). -/
  host     : List HostEvent
  /-- The host's WT writes in progress while a command executes (R67); empty between commands. -/
  overlap  : List WtWrite
  /-- How many draws of R67 have been taken; the model's own field (log entry 6). -/
  draws    : Nat
  /-- The latest response since reset, `none` before the first (R86; log entry 2). -/
  response : Option Response
deriving DecidableEq, Repr

/-- The fault registers after reset (R250). -/
def FaultRegs.atReset : FaultRegs := { cause := 0#4, info := 0#64 }

/-- The oscillator after reset (R250); the flavor's values are the OPEN parameters. -/
def OscRegs.atReset (p : Params) : OscRegs :=
  { running := false
    looping := p.resetRepeat
    phase   := 0#32
    freq    := 0#32
    rate    := Config.resetRate
    alpha   := 1595663#64
    delta   := 0#64
    tbase   := p.resetTbase
    tlen    := p.resetTlen
    index   := 0#16 }

/-- The filter after reset (R250). -/
def FltRegs.atReset : FltRegs :=
  { lp   := 0#16
    bp   := 0#16
    hp   := 0#16
    freq := 0#32
    rate := Config.resetRate
    ft   := 0#64
    qinv := 67108864#64 }

/-- The machine right after reset, for a choice of the OPEN parameters, with WT not yet written and nothing
issued (R250). -/
def State.resetWith (p : Params) : State :=
  { fault    := .atReset
    osc      := .atReset p
    flt      := .atReset
    lfsr16   := Config.lfsr16Seed
    lfsr32   := Config.lfsr32Seed
    wt       := []
    params   := p
    host     := []
    overlap  := []
    draws    := 0
    response := none }

/-- The machine right after reset (R250). -/
def State.reset : State := State.resetWith Config.openParams

end Sys2Proof.Machine
end

