-- ==== Sys2Proof/Machine/Flags.lean ====
section
/-! DEFINITION. The block's flags: it has no condition codes, only OSC_CTRL.RUNNING, OSC_CTRL.REPEAT and
FAULT_CAUSE (spec/10_state.md R50), and SCLIP's predicate. -/

namespace Sys2Proof.Machine

open Sys2Proof

/-- `OSC_CTRL` as RDREG 0x10 reads it: RUNNING in bit 0, REPEAT in bit 1 (R27). -/
def oscCtrlWord (o : OscRegs) : BitVec 64 :=
  zext64 (BitVec.ofBool o.looping ++ BitVec.ofBool o.running)

/-- The oscillator with `OSC_CTRL.RUNNING` written (R26). -/
def OscRegs.withRunning (o : OscRegs) (r : Bool) : OscRegs := { o with running := r }

/-- The oscillator with `OSC_CTRL.REPEAT` written (R27). -/
def OscRegs.withLooping (o : OscRegs) (f : Bool) : OscRegs := { o with looping := f }

/-- The block is faulted: `FAULT_CAUSE` is not 0 (spec/60_exceptions.md R223). -/
def isFaulted (s : State) : Bool := s.fault.cause != 0#4

/-- The clipping predicate: true only at the exact extremes (spec/41_sample_arith.md R113). -/
def isClipped (v : Int) : Bool := v == Config.sampleMin || v == Config.sampleMax

end Sys2Proof.Machine
end

