-- ==== Sys2Proof/Machine/Ops.lean ====
section
/-! DEFINITION. The operations the commands share: register updates, responses, taking a fault and leaving it,
the wavetable memory. -/

namespace Sys2Proof.Machine

open Sys2Proof

/-! ### Register updates -/

/-- The state with the oscillator's registers replaced. -/
def State.withOsc (s : State) (o : OscRegs) : State := { s with osc := o }

/-- The state with the filter's registers replaced. -/
def State.withFlt (s : State) (f : FltRegs) : State := { s with flt := f }

/-- The state with `LFSR16` written. -/
def State.withLfsr16 (s : State) (r : BitVec 16) : State := { s with lfsr16 := r }

/-- The state with `LFSR32` written. -/
def State.withLfsr32 (s : State) (r : BitVec 32) : State := { s with lfsr32 := r }

/-- The state with the fault registers written. -/
def State.withFault (s : State) (f : FaultRegs) : State := { s with fault := f }

/-- The state with WT replaced. -/
def State.withWt (s : State) (m : Memory) : State := { s with wt := m }

/-! ### Responses (spec/00_scope.md R13) -/

/-- `respond(status, result)`. -/
def respond (status : Status) (result : Result) (s : State) : State :=
  { s with response := some { status := status, result := result } }

/-- `reject()`: answered REJECTED, no state change (spec/60_exceptions.md R221). -/
def reject (s : State) : State := respond .rejected 0#64 s

/-- The answer of a faulted block to a word it does not execute (R223). -/
def answerFaulted (s : State) : State := respond .fault 0#64 s

/-- The answer to an illegal word (R224). -/
def answerIllegal (s : State) : State := respond .illegal 0#64 s

/-- The code of a status (spec/30_encoding.md R87). -/
def Status.code : Status → BitVec 3
  | .ok => 0#3
  | .noSample => 1#3
  | .rejected => 2#3
  | .illegal => 3#3
  | .fault => 4#3

/-- A command other than RDREG: a faulted block answers FAULT and changes nothing; otherwise the command's
own effect `t` (R223, R225). -/
def whenLive (s t : State) : Host.Outcome State Fault Refusal :=
  .next (if isFaulted s then answerFaulted s else t)

/-! ### Taking a fault and returning from it -/

/-- The causes a command raises (R220). -/
inductive FaultCause where
  | indexRange
  | wtAddr
deriving DecidableEq, Repr

/-- The `FAULT_CAUSE` value of a cause (R24, R220). -/
def FaultCause.code : FaultCause → BitVec 4
  | .indexRange => 1#4
  | .wtAddr => 2#4

/-- `raise Fault(cause, info)` from the state before the command: nothing the command staged survives, the
two fault registers are written, the answer is FAULT with RESULT 0 (R13, R222). -/
def raiseFault (cause : FaultCause) (info : Nat) (s : State) : State :=
  respond .fault 0#64 (s.withFault { cause := cause.code, info := regOfNat 64 info })

/-- Reset, the one return from a fault (R226): every register takes its reset value, WT is not touched, a
command in progress gets no response (spec/70_reset_and_hazards.md R250, R252). -/
def assertReset (s : State) : State :=
  { State.resetWith s.params with wt := s.wt, host := s.host, draws := s.draws }

/-! ### The wavetable memory (spec/20_memory.md) -/

/-- The byte listed at a byte offset, if the host has written it. -/
def Memory.get : Memory → Nat → Option Byte
  | [], _ => none
  | (k, b) :: rest, a => if k = a then some b else Memory.get rest a

/-- The memory with the byte at an offset written; the canonical form is kept. -/
def Memory.set : Memory → Nat → Byte → Memory
  | [], a, v => [(a, v)]
  | (k, b) :: rest, a, v =>
    if a < k then (a, v) :: (k, b) :: rest
    else if a = k then (a, v) :: rest
    else (k, b) :: Memory.set rest a v

/-- What a byte of WT reads as: the host's byte, or the free power-on value of a byte it never wrote. -/
def Memory.byte (m : Memory) (a : Nat) : Byte := (m.get a).getD (Config.wtPowerOn a)

/-- The byte offset of an entry's bits 7:0 (R62). -/
def lowByteOffset (order : ByteOrder) (a : Nat) : Nat :=
  match order with
  | .little => 2 * a
  | .big => 2 * a + 1

/-- The byte offset of an entry's bits 15:8 (R62). -/
def highByteOffset (order : ByteOrder) (a : Nat) : Nat :=
  match order with
  | .little => 2 * a + 1
  | .big => 2 * a

/-- Entry `a` of WT, read whole (R61, R62, R64). -/
def Memory.entry (m : Memory) (a : Nat) : Sample :=
  m.byte (highByteOffset Config.wtByteOrder a) ++ m.byte (lowByteOffset Config.wtByteOrder a)

/-- WT with entry `a` written whole by the host (R60, R62). -/
def Memory.setEntry (m : Memory) (a : Nat) (v : Sample) : Memory :=
  (m.set (lowByteOffset Config.wtByteOrder a) (v.extractLsb' 0 8)).set
    (highByteOffset Config.wtByteOrder a) (v.extractLsb' 8 8)

/-- Entry `a` exists (R60). -/
def entryExists (s : State) (a : Nat) : Bool := a < s.params.wtSize

/-- A host write in progress is to entry `a` (R67). -/
def readOverlaps (s : State) (a : Nat) : Bool := s.overlap.any (fun w => w.addr.toNat == a)

/-- `MemRead(a, 2)` of an entry that exists: the entry as the last completed host write left it, or a draw
when a host write to the same entry overlaps the read (R61, R67). -/
def memRead (s : State) (a : Nat) : Sample :=
  if readOverlaps s a then Config.freeSample s.draws else s.wt.entry a

/-- The state after that read: a read changes no state (R61); the model counts the draw it took. -/
def afterRead (s : State) (a : Nat) : State :=
  { s with draws := if readOverlaps s a then s.draws + 1 else s.draws }

/-- The host's WT writes complete, in order (R60, R67).  A write to an entry that does not exist stops the
model (log entry 10). -/
def landWrites : List WtWrite → State → Host.Outcome State Fault Refusal
  | [], s => .next s
  | w :: rest, s =>
    if entryExists s w.addr.toNat then landWrites rest (s.withWt (s.wt.setEntry w.addr.toNat w.value))
    else .fault .wtEntryAbsent

end Sys2Proof.Machine
end

