-- ==== Sys2Proof/Machine/Filter.lean ====
section
/-! DEFINITION. The state-variable filter (spec/44_filter.md). -/

namespace Sys2Proof.Machine

open Sys2Proof

/-- Step 1: `low_pass += (ft * band_pass) / NORM` (R190). -/
def filterLow (policy : FltOverflow) (round : DivRound) (ft lp bp : Int) : Int :=
  cut policy (lp + divn round (ft * bp) Config.fltNorm)

/-- Step 2: `high_pass = input - low_pass - (q_inv * band_pass) / NORM`, from the new low-pass and the old
band-pass (R190). -/
def filterHigh (policy : FltOverflow) (round : DivRound) (qinv x lp bp : Int) : Int :=
  cut policy (x - lp - divn round (qinv * bp) Config.fltNorm)

/-- Step 3: `band_pass += (ft * high_pass) / NORM`, from the new high-pass (R190). -/
def filterBand (policy : FltOverflow) (round : DivRound) (ft bp hp : Int) : Int :=
  cut policy (bp + divn round (ft * hp) Config.fltNorm)

/-- Step 4 and R43: `notch = high_pass + low_pass`. -/
def filterNotch (policy : FltOverflow) (hp lp : Int) : Int := cut policy (hp + lp)

/-- The four outputs of one tick. -/
structure FilterOut where
  lp    : Int
  bp    : Int
  hp    : Int
  notch : Int
deriving DecidableEq, Repr

/-- One tick in the load-bearing order 1, 2, 3, 4 (R190, R263). -/
def filterTick (policy : FltOverflow) (round : DivRound) (ft qinv lp bp x : Int) : FilterOut :=
  let lp' := filterLow policy round ft lp bp
  let hp' := filterHigh policy round qinv x lp' bp
  let bp' := filterBand policy round ft bp hp'
  { lp := lp', bp := bp', hp := hp', notch := filterNotch policy hp' lp' }

/-- One tick of this hardware on the filter's registers. -/
def FltRegs.tick (f : FltRegs) (x : Sample) : FilterOut :=
  filterTick Config.fltOverflow Config.divRound (f.ft.toNat : Int) (f.qinv.toNat : Int)
    (sext16 f.lp) (sext16 f.bp) (sext16 x)

/-- The filter's registers with the accumulators of a tick written. -/
def FltRegs.withOut (f : FltRegs) (o : FilterOut) : FltRegs :=
  { f with lp := toSample o.lp, bp := toSample o.bp, hp := toSample o.hp }

/-- `ft = (NORM * target_mfrequency) / sample_rate_mfrequency` (R191). -/
def ftOf (f rate : Nat) : Nat := Config.fltNorm * f / rate

/-- `q_inv = NORM - resonance`, clamped at 0 (R192). -/
def qinvOf (r : Nat) : Nat := Config.fltNorm - min r Config.fltNorm

/-- FLT_TICK (R190). -/
def execFltTick (x : Sample) (s : State) : Host.Outcome State Fault Refusal :=
  whenLive s
    (respond .ok
      (filterResult (s.flt.tick x).notch (s.flt.tick x).hp (s.flt.tick x).bp (s.flt.tick x).lp)
      (s.withFlt (s.flt.withOut (s.flt.tick x))))

/-- FLT_SET_FREQ: every frequency is accepted (R191). -/
def execFltSetFreq (f : MilliHertz) (s : State) : Host.Outcome State Fault Refusal :=
  whenLive s
    (respond .ok 0#64
      (s.withFlt { s.flt with freq := f, ft := regOfNat 64 (ftOf f.toNat s.flt.rate.toNat) }))

/-- FLT_SET_RES: a resonance above NORM clamps (R192). -/
def execFltSetRes (r : BitVec 32) (s : State) : Host.Outcome State Fault Refusal :=
  whenLive s (respond .ok 0#64 (s.withFlt { s.flt with qinv := regOfNat 64 (qinvOf r.toNat) }))

/-- FLT_SET_RATE: rate 0 is rejected (R193, R221). -/
def execFltSetRate (r : MilliHertz) (s : State) : Host.Outcome State Fault Refusal :=
  whenLive s
    (if r = 0#32 then reject s
     else respond .ok 0#64
       (s.withFlt { s.flt with rate := r, ft := regOfNat 64 (ftOf s.flt.freq.toNat r.toNat) }))

/-- FLT_GET_RATE (R194). -/
def execFltGetRate (s : State) : Host.Outcome State Fault Refusal :=
  whenLive s (respond .ok (zext64 s.flt.rate) s)

end Sys2Proof.Machine
end

