-- ==== Sys2Proof/Machine/Lfsr.lean ====
section
/-! DEFINITION. The LFSRs and the white-noise source (spec/42_lfsr_noise.md). -/

namespace Sys2Proof.Machine

open Sys2Proof

/-- `lfsr_step(r, m)`: shift right by one, then XOR the mask in if the discarded bit was 1 (R130). -/
def lfsrStep {n : Nat} (r m : BitVec n) : BitVec n :=
  (r >>> 1) ^^^ (if r.getLsbD 0 then m else 0#n)

/-- The next value of the 16-bit register. -/
def nextLfsr16 (r : BitVec 16) : BitVec 16 := lfsrStep r Config.lfsr16Mask

/-- The next value of the 32-bit register. -/
def nextLfsr32 (r : BitVec 32) : BitVec 32 := lfsrStep r Config.lfsr32Mask

/-- The noise transform: maximum positive Sample minus the register's low 16 bits (R134, R135). -/
def noiseSample (r : BitVec 32) : Int := Config.sampleMax - ((r.extractLsb' 0 16).toNat : Int)

/-- LFSR16_NEXT: advance and return the new value (R132). -/
def execLfsr16Next (s : State) : Host.Outcome State Fault Refusal :=
  whenLive s (respond .ok (zext64 (nextLfsr16 s.lfsr16)) (s.withLfsr16 (nextLfsr16 s.lfsr16)))

/-- LFSR32_NEXT: advance and return the new value (R133). -/
def execLfsr32Next (s : State) : Host.Outcome State Fault Refusal :=
  whenLive s (respond .ok (zext64 (nextLfsr32 s.lfsr32)) (s.withLfsr32 (nextLfsr32 s.lfsr32)))

/-- NOISE_TICK: advance the shared 32-bit register, then take the sample from the new value (R134). -/
def execNoiseTick (s : State) : Host.Outcome State Fault Refusal :=
  whenLive s
    (respond .ok (sampleResult (noiseSample (nextLfsr32 s.lfsr32))) (s.withLfsr32 (nextLfsr32 s.lfsr32)))

end Sys2Proof.Machine
end

