-- ==== Sys2Proof/Machine/Oscillator.lean ====
section
/-! DEFINITION. The wavetable oscillator and the frequency-to-phase-increment scaler
(spec/43_oscillator.md). -/

namespace Sys2Proof.Machine

open Sys2Proof

/-! ### The scaler -/

/-- `alpha_of(rate)` (R151). -/
def alphaOf (rate : Nat) : Nat := Config.phiMax * Config.oscNorm / rate

/-- `scale(f, rate, alpha)` on either path (R150). -/
def scaleBy (path : OscScaler) (f rate alpha : Nat) : Nat :=
  match path with
  | .exchange => f * alpha / Config.oscNorm
  | .direct => f * Config.phiMax / rate

/-- The scaler of this hardware (R6, R150). -/
def scale (f rate alpha : Nat) : Nat := scaleBy Config.oscScaler f rate alpha

/-! ### The tick (R152, R153) -/

/-- Step 1: the advanced phase, an exact sum. -/
def advancedPhase (o : OscRegs) : Nat := o.phase.toNat + o.delta.toNat

/-- Step 3: the table index of a phase. -/
def tableIndex (o : OscRegs) (p : Nat) : Nat := o.tlen.toNat * p / Config.phiMax

/-- The entry address of a phase, exact: it may exceed 2^32 - 1. -/
def tableAddr (o : OscRegs) (p : Nat) : Nat := o.tbase.toNat + tableIndex o p

/-- The lookup at phase `p`: the two faults in their order, else the entry, with the phase and the index
written (R152, R153). -/
def lookup (p : Nat) (s : State) : State :=
  if s.osc.tlen.toNat ≤ tableIndex s.osc p then
    raiseFault .indexRange (tableIndex s.osc p) s
  else if !entryExists s (tableAddr s.osc p) then
    raiseFault .wtAddr (tableAddr s.osc p) s
  else
    respond .ok (zext64 (memRead s (tableAddr s.osc p)))
      ((afterRead s (tableAddr s.osc p)).withOsc
        { s.osc with phase := regOfNat 32 p, index := regOfNat 16 (tableIndex s.osc p) })

/-- A OneShot wrap: the oscillator stops at phase 0 and there is no sample (R152). -/
def oneShotEnd (s : State) : State :=
  respond .noSample 0#64 (s.withOsc ({ s.osc with phase := 0#32 }.withRunning false))

/-- The tick of a block that is not faulted (R152). -/
def oscTick (s : State) : State :=
  if !s.osc.running then respond .noSample 0#64 s
  else if Config.phiMax ≤ advancedPhase s.osc then
    if s.osc.looping then lookup (advancedPhase s.osc - Config.phiMax) s else oneShotEnd s
  else lookup (advancedPhase s.osc) s

/-- OSC_TICK (R152). -/
def execOscTick (s : State) : Host.Outcome State Fault Refusal := whenLive s (oscTick s)

/-! ### Lifecycle (R154 to R158) -/

/-- OSC_START (R154). -/
def execOscStart (s : State) : Host.Outcome State Fault Refusal :=
  whenLive s (respond .ok 0#64 (s.withOsc (s.osc.withRunning true)))

/-- OSC_STOP: the phase is retained (R155). -/
def execOscStop (s : State) : Host.Outcome State Fault Refusal :=
  whenLive s (respond .ok 0#64 (s.withOsc (s.osc.withRunning false)))

/-- OSC_RESET: zeroes the phase, the run state unchanged (R156). -/
def execOscReset (s : State) : Host.Outcome State Fault Refusal :=
  whenLive s (respond .ok 0#64 (s.withOsc { s.osc with phase := 0#32 }))

/-- OSC_RESET_START (R157). -/
def execOscResetStart (s : State) : Host.Outcome State Fault Refusal :=
  whenLive s (respond .ok 0#64 (s.withOsc ({ s.osc with phase := 0#32 }.withRunning true)))

/-- OSC_STOP_RESET (R158). -/
def execOscStopReset (s : State) : Host.Outcome State Fault Refusal :=
  whenLive s (respond .ok 0#64 (s.withOsc ({ s.osc with phase := 0#32 }.withRunning false)))

/-! ### Parameters (R159 to R163) -/

/-- The oscillator with a new frequency and the increment that follows from it (R159). -/
def OscRegs.withFreq (o : OscRegs) (f : MilliHertz) : OscRegs :=
  { o with freq := f, delta := regOfNat 64 (scale f.toNat o.rate.toNat o.alpha.toNat) }

/-- The oscillator with a new rate and the constants that follow from it (R160). -/
def OscRegs.withRate (o : OscRegs) (r : MilliHertz) : OscRegs :=
  { o with
    rate  := r
    alpha := regOfNat 64 (alphaOf r.toNat)
    delta := regOfNat 64 (scale o.freq.toNat r.toNat (alphaOf r.toNat)) }

/-- OSC_SET_FREQ: every frequency is accepted (R159). -/
def execOscSetFreq (f : MilliHertz) (s : State) : Host.Outcome State Fault Refusal :=
  whenLive s (respond .ok 0#64 (s.withOsc (s.osc.withFreq f)))

/-- OSC_SET_RATE: rate 0 is rejected (R160, R221). -/
def execOscSetRate (r : MilliHertz) (s : State) : Host.Outcome State Fault Refusal :=
  whenLive s (if r = 0#32 then reject s else respond .ok 0#64 (s.withOsc (s.osc.withRate r)))

/-- OSC_GET_RATE (R161). -/
def execOscGetRate (s : State) : Host.Outcome State Fault Refusal :=
  whenLive s (respond .ok (zext64 s.osc.rate) s)

/-- OSC_SET_TABLE: the range is not checked here (R162). -/
def execOscSetTable (base : EntryAddr) (len : BitVec 16) (s : State) : Host.Outcome State Fault Refusal :=
  whenLive s (respond .ok 0#64 (s.withOsc { s.osc with tbase := base, tlen := len }))

/-- OSC_SET_REPEAT (R163). -/
def execOscSetRepeat (f : Bool) (s : State) : Host.Outcome State Fault Refusal :=
  whenLive s (respond .ok 0#64 (s.withOsc (s.osc.withLooping f)))

end Sys2Proof.Machine
end

