-- ==== Sys2Proof/Machine/SampleArith.lean ====
section
/-! DEFINITION. Sample arithmetic (spec/41_sample_arith.md). -/

namespace Sys2Proof.Machine

open Sys2Proof

/-- SADD: saturating add (R110). -/
def execSadd (a b : Sample) (s : State) : Host.Outcome State Fault Refusal :=
  whenLive s (respond .ok (sampleResult (clamp16 (sext16 a + sext16 b))) s)

/-- SMUL: saturating multiply of two Samples as integers (R111). -/
def execSmul (a b : Sample) (s : State) : Host.Outcome State Fault Refusal :=
  whenLive s (respond .ok (sampleResult (clamp16 (sext16 a * sext16 b))) s)

/-- The normalized product before the clamp: `a * b / 32768` (R112). -/
def normalizedProduct (round : DivRound) (a b : Int) : Int := divn round (a * b) Config.sampleNorm

/-- SNMUL: normalized multiply; its one out-of-range quotient saturates (R112). -/
def execSnmul (a b : Sample) (s : State) : Host.Outcome State Fault Refusal :=
  whenLive s
    (respond .ok (sampleResult (clamp16 (normalizedProduct Config.divRound (sext16 a) (sext16 b)))) s)

/-- SCLIP: the clipping predicate (R113). -/
def execSclip (a : Sample) (s : State) : Host.Outcome State Fault Refusal :=
  whenLive s (respond .ok (flagResult (isClipped (sext16 a))) s)

end Sys2Proof.Machine
end

