-- ==== Sys2Proof/WellFormed.lean ====
section
/-! DEFINITION. Which terms of `Instr` are commands.  Operand widths are in the types; the one check left is
RDREG's register number (spec/45_system.md R211). -/

namespace Sys2Proof

/-- The 21 legal register numbers: 0x00, 0x01, 0x10 to 0x18, 0x20 to 0x27, 0x30, 0x31 (R211). -/
def legalRegNumber (r : BitVec 8) : Bool :=
  r.toNat ≤ 0x01 || (0x10 ≤ r.toNat && r.toNat ≤ 0x18) || (0x20 ≤ r.toNat && r.toNat ≤ 0x27)
    || (0x30 ≤ r.toNat && r.toNat ≤ 0x31)

/-- An instruction is well formed when an `RDREG` names a register (R84 case 4, R211). -/
def Instr.wf : Instr → Bool
  | .rdreg r => legalRegNumber r
  | .sadd _ _ => true
  | .smul _ _ => true
  | .snmul _ _ => true
  | .sclip _ => true
  | .lfsr16Next => true
  | .lfsr32Next => true
  | .noiseTick => true
  | .oscTick => true
  | .oscStart => true
  | .oscStop => true
  | .oscReset => true
  | .oscResetStart => true
  | .oscStopReset => true
  | .oscSetFreq _ => true
  | .oscSetRate _ => true
  | .oscGetRate => true
  | .oscSetTable _ _ => true
  | .oscSetRepeat _ => true
  | .fltTick _ => true
  | .fltSetFreq _ => true
  | .fltSetRes _ => true
  | .fltSetRate _ => true
  | .fltGetRate => true

end Sys2Proof
end

