-- ==== Sys2Proof/Decode.lean ====
section
/-! DEFINITION. Command words and instructions: the fields, the operand forms, the opcode map, the decoder and
the encoder (spec/30_encoding.md). -/

namespace Sys2Proof

/-! ### Fields of a word (R80) -/

/-- `OP`, bits 63:56. -/
def opField (w : Command) : BitVec 8 := w.extractLsb' 56 8

/-- `RSV`, bits 55:48. -/
def rsvField (w : Command) : BitVec 8 := w.extractLsb' 48 8

/-- `B`, bits 47:32. -/
def bField (w : Command) : BitVec 16 := w.extractLsb' 32 16

/-- `A`, bits 31:0. -/
def aField (w : Command) : BitVec 32 := w.extractLsb' 0 32

/-- A command word put together from its fields, with `RSV` = 0 (R80, R81). -/
def commandWord (op : BitVec 8) (b : BitVec 16) (a : BitVec 32) : Command := op ++ 0#8 ++ b ++ a

/-! ### Operand assembly (R82) -/

/-- `A[31:16]`: operand `a` of form `ss`. -/
def sampleHi (w : Command) : Sample := w.extractLsb' 16 16

/-- `A[15:0]`: operand `b` of form `ss`, operand `a` of form `s`. -/
def sampleLo (w : Command) : Sample := w.extractLsb' 0 16

/-- `A[0]`: operand `f` of form `bit`. -/
def flagOperand (w : Command) : Bool := w.getLsbD 0

/-- `A[7:0]`: operand `r` of form `reg`. -/
def regOperand (w : Command) : BitVec 8 := w.extractLsb' 0 8

/-- The operand bits (of `B` and `A`) that a form does not use; every one must be 0 (R82). -/
def Form.unusedMask : Form → Command
  | .noOperand => 0x0000FFFFFFFFFFFF#64
  | .ss        => 0x0000FFFF00000000#64
  | .s         => 0x0000FFFFFFFF0000#64
  | .u32       => 0x0000FFFF00000000#64
  | .tbl       => 0x0000000000000000#64
  | .bit       => 0x0000FFFFFFFFFFFE#64
  | .reg       => 0x0000FFFFFFFFFF00#64

/-! ### The opcode map (R83) -/

/-- The opcode of each mnemonic. -/
def Mnemonic.op : Mnemonic → BitVec 8
  | .sadd => 0x10#8
  | .smul => 0x11#8
  | .snmul => 0x12#8
  | .sclip => 0x13#8
  | .lfsr16Next => 0x20#8
  | .lfsr32Next => 0x21#8
  | .noiseTick => 0x22#8
  | .oscTick => 0x30#8
  | .oscStart => 0x31#8
  | .oscStop => 0x32#8
  | .oscReset => 0x33#8
  | .oscResetStart => 0x34#8
  | .oscStopReset => 0x35#8
  | .oscSetFreq => 0x36#8
  | .oscSetRate => 0x37#8
  | .oscGetRate => 0x38#8
  | .oscSetTable => 0x39#8
  | .oscSetRepeat => 0x3A#8
  | .fltTick => 0x40#8
  | .fltSetFreq => 0x41#8
  | .fltSetRes => 0x42#8
  | .fltSetRate => 0x43#8
  | .fltGetRate => 0x44#8
  | .rdreg => 0xF0#8

/-- The operand form of each mnemonic. -/
def Mnemonic.form : Mnemonic → Form
  | .sadd => .ss
  | .smul => .ss
  | .snmul => .ss
  | .sclip => .s
  | .lfsr16Next => .noOperand
  | .lfsr32Next => .noOperand
  | .noiseTick => .noOperand
  | .oscTick => .noOperand
  | .oscStart => .noOperand
  | .oscStop => .noOperand
  | .oscReset => .noOperand
  | .oscResetStart => .noOperand
  | .oscStopReset => .noOperand
  | .oscSetFreq => .u32
  | .oscSetRate => .u32
  | .oscGetRate => .noOperand
  | .oscSetTable => .tbl
  | .oscSetRepeat => .bit
  | .fltTick => .s
  | .fltSetFreq => .u32
  | .fltSetRes => .u32
  | .fltSetRate => .u32
  | .fltGetRate => .noOperand
  | .rdreg => .reg

/-- Every mnemonic, in the map's order. -/
def Mnemonic.all : List Mnemonic :=
  [ .sadd, .smul, .snmul, .sclip, .lfsr16Next, .lfsr32Next, .noiseTick,
    .oscTick, .oscStart, .oscStop, .oscReset, .oscResetStart, .oscStopReset,
    .oscSetFreq, .oscSetRate, .oscGetRate, .oscSetTable, .oscSetRepeat,
    .fltTick, .fltSetFreq, .fltSetRes, .fltSetRate, .fltGetRate, .rdreg ]

/-- The mnemonic an opcode selects; `none` for the unassigned opcodes of R84. -/
def Mnemonic.ofOp (op : BitVec 8) : Option Mnemonic := Mnemonic.all.find? (fun m => m.op == op)

/-- One row of the opcode map as R83 prints it: a word `w` selects the row iff `w &&& mask = pattern`
(`pattern` is the map's `match` column). -/
structure OpcodeRow where
  mnemonic : Mnemonic
  pattern  : Command
  mask     : Command
deriving DecidableEq, Repr

/-- A word selects a row (R83). -/
def OpcodeRow.selects (row : OpcodeRow) (w : Command) : Bool := (w &&& row.mask) == row.pattern

/-- The rows of the Sample and LFSR units. -/
def opcodeRowsSampleLfsr : List OpcodeRow :=
  [ ⟨.sadd,       0x1000000000000000#64, 0xFFFFFFFF00000000#64⟩,
    ⟨.smul,       0x1100000000000000#64, 0xFFFFFFFF00000000#64⟩,
    ⟨.snmul,      0x1200000000000000#64, 0xFFFFFFFF00000000#64⟩,
    ⟨.sclip,      0x1300000000000000#64, 0xFFFFFFFFFFFF0000#64⟩,
    ⟨.lfsr16Next, 0x2000000000000000#64, 0xFFFFFFFFFFFFFFFF#64⟩,
    ⟨.lfsr32Next, 0x2100000000000000#64, 0xFFFFFFFFFFFFFFFF#64⟩,
    ⟨.noiseTick,  0x2200000000000000#64, 0xFFFFFFFFFFFFFFFF#64⟩ ]

/-- The rows of the oscillator. -/
def opcodeRowsOsc : List OpcodeRow :=
  [ ⟨.oscTick,       0x3000000000000000#64, 0xFFFFFFFFFFFFFFFF#64⟩,
    ⟨.oscStart,      0x3100000000000000#64, 0xFFFFFFFFFFFFFFFF#64⟩,
    ⟨.oscStop,       0x3200000000000000#64, 0xFFFFFFFFFFFFFFFF#64⟩,
    ⟨.oscReset,      0x3300000000000000#64, 0xFFFFFFFFFFFFFFFF#64⟩,
    ⟨.oscResetStart, 0x3400000000000000#64, 0xFFFFFFFFFFFFFFFF#64⟩,
    ⟨.oscStopReset,  0x3500000000000000#64, 0xFFFFFFFFFFFFFFFF#64⟩,
    ⟨.oscSetFreq,    0x3600000000000000#64, 0xFFFFFFFF00000000#64⟩,
    ⟨.oscSetRate,    0x3700000000000000#64, 0xFFFFFFFF00000000#64⟩,
    ⟨.oscGetRate,    0x3800000000000000#64, 0xFFFFFFFFFFFFFFFF#64⟩,
    ⟨.oscSetTable,   0x3900000000000000#64, 0xFFFF000000000000#64⟩,
    ⟨.oscSetRepeat,  0x3A00000000000000#64, 0xFFFFFFFFFFFFFFFE#64⟩ ]

/-- The rows of the filter and the system command. -/
def opcodeRowsFltSystem : List OpcodeRow :=
  [ ⟨.fltTick,    0x4000000000000000#64, 0xFFFFFFFFFFFF0000#64⟩,
    ⟨.fltSetFreq, 0x4100000000000000#64, 0xFFFFFFFF00000000#64⟩,
    ⟨.fltSetRes,  0x4200000000000000#64, 0xFFFFFFFF00000000#64⟩,
    ⟨.fltSetRate, 0x4300000000000000#64, 0xFFFFFFFF00000000#64⟩,
    ⟨.fltGetRate, 0x4400000000000000#64, 0xFFFFFFFFFFFFFFFF#64⟩,
    ⟨.rdreg,      0xF000000000000000#64, 0xFFFFFFFFFFFFFF00#64⟩ ]

/-- The opcode map, row by row (R83). -/
def opcodeTable : List OpcodeRow := opcodeRowsSampleLfsr ++ opcodeRowsOsc ++ opcodeRowsFltSystem

/-! ### Register numbers (spec/10_state.md R23) -/

/-- The `RDREG` number of a register. -/
def Reg.number : Reg → BitVec 8
  | .faultCause => 0x00#8
  | .faultInfo => 0x01#8
  | .oscCtrl => 0x10#8
  | .oscPhase => 0x11#8
  | .oscFreq => 0x12#8
  | .oscRate => 0x13#8
  | .oscAlpha => 0x14#8
  | .oscDelta => 0x15#8
  | .oscTbase => 0x16#8
  | .oscTlen => 0x17#8
  | .oscIndex => 0x18#8
  | .fltLp => 0x20#8
  | .fltBp => 0x21#8
  | .fltHp => 0x22#8
  | .fltFreq => 0x23#8
  | .fltRate => 0x24#8
  | .fltFt => 0x25#8
  | .fltQinv => 0x26#8
  | .fltNotch => 0x27#8
  | .lfsr16 => 0x30#8
  | .lfsr32 => 0x31#8

/-- Every register `RDREG` reads, in the order of their numbers. -/
def Reg.all : List Reg :=
  [ .faultCause, .faultInfo,
    .oscCtrl, .oscPhase, .oscFreq, .oscRate, .oscAlpha, .oscDelta, .oscTbase, .oscTlen, .oscIndex,
    .fltLp, .fltBp, .fltHp, .fltFreq, .fltRate, .fltFt, .fltQinv, .fltNotch,
    .lfsr16, .lfsr32 ]

/-- The register a number names; `none` for the numbers R211 makes illegal. -/
def Reg.ofNumber (r : BitVec 8) : Option Reg := Reg.all.find? (fun x => x.number == r)

/-! ### The decoder (R84, R85) -/

/-- Why a word is illegal: the four cases of R84. -/
inductive IllegalReason where
  /-- R84 (1): `OP` is not in the opcode map. -/
  | unassignedOp
  /-- R84 (2): `RSV` is not 0. -/
  | reservedBits
  /-- R84 (3): an operand bit the form does not use is 1. -/
  | unusedOperandBits
  /-- R84 (4): `RDREG` of a number that names no register. -/
  | registerNumber
deriving DecidableEq, Repr

/-- What decoding a word gives: every word is either one command or illegal (R85). -/
inductive Decoded where
  | legal (i : Instr)
  | illegal (why : IllegalReason)
deriving DecidableEq, Repr

/-- The operands of a mnemonic, assembled from a word by its form (R82). -/
def assembleOperands (m : Mnemonic) (w : Command) : Instr :=
  match m with
  | .sadd => .sadd (sampleHi w) (sampleLo w)
  | .smul => .smul (sampleHi w) (sampleLo w)
  | .snmul => .snmul (sampleHi w) (sampleLo w)
  | .sclip => .sclip (sampleLo w)
  | .lfsr16Next => .lfsr16Next
  | .lfsr32Next => .lfsr32Next
  | .noiseTick => .noiseTick
  | .oscTick => .oscTick
  | .oscStart => .oscStart
  | .oscStop => .oscStop
  | .oscReset => .oscReset
  | .oscResetStart => .oscResetStart
  | .oscStopReset => .oscStopReset
  | .oscSetFreq => .oscSetFreq (aField w)
  | .oscSetRate => .oscSetRate (aField w)
  | .oscGetRate => .oscGetRate
  | .oscSetTable => .oscSetTable (aField w) (bField w)
  | .oscSetRepeat => .oscSetRepeat (flagOperand w)
  | .fltTick => .fltTick (sampleLo w)
  | .fltSetFreq => .fltSetFreq (aField w)
  | .fltSetRes => .fltSetRes (aField w)
  | .fltSetRate => .fltSetRate (aField w)
  | .fltGetRate => .fltGetRate
  | .rdreg => .rdreg (regOperand w)

/-- A register number is given only by `RDREG`, and must name a register (R84 case 4, R211). -/
def namesRegister : Mnemonic → Command → Bool
  | .rdreg, w => (Reg.ofNumber (regOperand w)).isSome
  | _, _ => true

/-- The decoder: total on the 2^64 words (R84, R85). -/
def decode (w : Command) : Decoded :=
  match Mnemonic.ofOp (opField w) with
  | none => .illegal .unassignedOp
  | some m =>
    if rsvField w ≠ 0#8 then .illegal .reservedBits
    else if w &&& m.form.unusedMask ≠ 0#64 then .illegal .unusedOperandBits
    else if namesRegister m w then .legal (assembleOperands m w)
    else .illegal .registerNumber

/-! ### The encoder -/

/-- Field `B` of an instruction's word (R82). -/
def Instr.bBits : Instr → BitVec 16
  | .oscSetTable _ len => len
  | .sadd _ _ => 0#16
  | .smul _ _ => 0#16
  | .snmul _ _ => 0#16
  | .sclip _ => 0#16
  | .oscSetFreq _ => 0#16
  | .oscSetRate _ => 0#16
  | .oscSetRepeat _ => 0#16
  | .fltTick _ => 0#16
  | .fltSetFreq _ => 0#16
  | .fltSetRes _ => 0#16
  | .fltSetRate _ => 0#16
  | .rdreg _ => 0#16
  | .lfsr16Next => 0#16
  | .lfsr32Next => 0#16
  | .noiseTick => 0#16
  | .oscTick => 0#16
  | .oscStart => 0#16
  | .oscStop => 0#16
  | .oscReset => 0#16
  | .oscResetStart => 0#16
  | .oscStopReset => 0#16
  | .oscGetRate => 0#16
  | .fltGetRate => 0#16

/-- Field `A` of an instruction's word (R82). -/
def Instr.aBits : Instr → BitVec 32
  | .sadd a b => a ++ b
  | .smul a b => a ++ b
  | .snmul a b => a ++ b
  | .sclip a => 0#16 ++ a
  | .oscSetFreq f => f
  | .oscSetRate r => r
  | .oscSetTable base _ => base
  | .oscSetRepeat f => 0#31 ++ BitVec.ofBool f
  | .fltTick x => 0#16 ++ x
  | .fltSetFreq f => f
  | .fltSetRes r => r
  | .fltSetRate r => r
  | .rdreg r => 0#24 ++ r
  | .lfsr16Next => 0#32
  | .lfsr32Next => 0#32
  | .noiseTick => 0#32
  | .oscTick => 0#32
  | .oscStart => 0#32
  | .oscStop => 0#32
  | .oscReset => 0#32
  | .oscResetStart => 0#32
  | .oscStopReset => 0#32
  | .oscGetRate => 0#32
  | .fltGetRate => 0#32

/-- The word of an instruction (R80 to R83). -/
def encode (i : Instr) : Command := commandWord i.mnemonic.op i.bBits i.aBits

/-! ### The host's words -/

/-- The command word whose bits are `w`, bit 0 least significant, with every bit from `nbits` up zero. -/
def tableWord (nbits w : Nat) : Command := BitVec.ofNat 64 (w % 2 ^ nbits)

/-- The instruction the decoder reads from the bits `w`; `none` where the word is illegal. -/
def decodeTableWord (nbits w : Nat) : Option Instr :=
  match decode (tableWord nbits w) with
  | .legal i => some i
  | .illegal _ => none

end Sys2Proof
end

