-- ==== Sys2Proof/Machine/System.lean ====
section
/-! DEFINITION. The system command RDREG (spec/45_system.md). -/

namespace Sys2Proof.Machine

open Sys2Proof

/-- The notch output of the stored accumulators (spec/10_state.md R43). -/
def FltRegs.notch (f : FltRegs) : Sample :=
  toSample (filterNotch Config.fltOverflow (sext16 f.hp) (sext16 f.lp))

/-- The value RDREG returns for a register, zero-extended (R210). -/
def readReg (s : State) : Reg → BitVec 64
  | .faultCause => zext64 s.fault.cause
  | .faultInfo => s.fault.info
  | .oscCtrl => oscCtrlWord s.osc
  | .oscPhase => zext64 s.osc.phase
  | .oscFreq => zext64 s.osc.freq
  | .oscRate => zext64 s.osc.rate
  | .oscAlpha => s.osc.alpha
  | .oscDelta => s.osc.delta
  | .oscTbase => zext64 s.osc.tbase
  | .oscTlen => zext64 s.osc.tlen
  | .oscIndex => zext64 s.osc.index
  | .fltLp => zext64 s.flt.lp
  | .fltBp => zext64 s.flt.bp
  | .fltHp => zext64 s.flt.hp
  | .fltFreq => zext64 s.flt.freq
  | .fltRate => zext64 s.flt.rate
  | .fltFt => s.flt.ft
  | .fltQinv => s.flt.qinv
  | .fltNotch => zext64 s.flt.notch
  | .lfsr16 => zext64 s.lfsr16
  | .lfsr32 => zext64 s.lfsr32

/-- RDREG: the one command a faulted block still performs (R210, R223).  A number that names no register
makes the word illegal (R211). -/
def execRdreg (r : BitVec 8) (s : State) : Host.Outcome State Fault Refusal :=
  match Reg.ofNumber r with
  | some reg => .next (respond .ok (readReg s reg) s)
  | none => whenLive s (answerIllegal s)

end Sys2Proof.Machine
end

