-- ==== Sys2Proof/Machine/Dispatch.lean ====
section
/-! DEFINITION. What each instruction does: one arm per constructor. -/

namespace Sys2Proof.Machine

open Sys2Proof

/-- Execute one decoded command (spec/30_encoding.md R83 names each one's rule). -/
def exec (i : Instr) (s : State) : Host.Outcome State Fault Refusal :=
  match i with
  -- Sample arithmetic
  | .sadd a b => Sys2Proof.Machine.execSadd a b s
  | .smul a b => Sys2Proof.Machine.execSmul a b s
  | .snmul a b => Sys2Proof.Machine.execSnmul a b s
  | .sclip a => Sys2Proof.Machine.execSclip a s
  -- LFSR and noise
  | .lfsr16Next => Sys2Proof.Machine.execLfsr16Next s
  | .lfsr32Next => Sys2Proof.Machine.execLfsr32Next s
  | .noiseTick => Sys2Proof.Machine.execNoiseTick s
  -- Oscillator
  | .oscTick => Sys2Proof.Machine.execOscTick s
  | .oscStart => Sys2Proof.Machine.execOscStart s
  | .oscStop => Sys2Proof.Machine.execOscStop s
  | .oscReset => Sys2Proof.Machine.execOscReset s
  | .oscResetStart => Sys2Proof.Machine.execOscResetStart s
  | .oscStopReset => Sys2Proof.Machine.execOscStopReset s
  | .oscSetFreq f => Sys2Proof.Machine.execOscSetFreq f s
  | .oscSetRate r => Sys2Proof.Machine.execOscSetRate r s
  | .oscGetRate => Sys2Proof.Machine.execOscGetRate s
  | .oscSetTable base len => Sys2Proof.Machine.execOscSetTable base len s
  | .oscSetRepeat f => Sys2Proof.Machine.execOscSetRepeat f s
  -- Filter
  | .fltTick x => Sys2Proof.Machine.execFltTick x s
  | .fltSetFreq f => Sys2Proof.Machine.execFltSetFreq f s
  | .fltSetRes r => Sys2Proof.Machine.execFltSetRes r s
  | .fltSetRate r => Sys2Proof.Machine.execFltSetRate r s
  | .fltGetRate => Sys2Proof.Machine.execFltGetRate s
  -- System
  | .rdreg r => Sys2Proof.Machine.execRdreg r s

end Sys2Proof.Machine
end

