-- ==== Sys2Proof/Machine/Issue.lean ====
section
/-! DEFINITION. One host event: a command issued and answered, a WT write, a reset (spec/10_state.md R20). -/

namespace Sys2Proof.Machine

open Sys2Proof

/-- Answer one word: decode it and execute the command, or answer it as illegal; a faulted block answers
FAULT before it answers ILLEGAL (spec/60_exceptions.md R225). -/
def runWord (w : Command) (s : State) : Host.Outcome State Fault Refusal :=
  match decode w with
  | .legal i => exec i s
  | .illegal _ => whenLive s (answerIllegal s)

/-- A command with host writes overlapping it: the command completes, then the writes do (spec/20_memory.md
R67; log entry 7). -/
def runCommand (w : Command) (overlapping : List WtWrite) (s : State) : Host.Outcome State Fault Refusal :=
  match runWord w { s with overlap := overlapping } with
  | .next t => landWrites overlapping { t with overlap := [] }
  | .fault r => .fault r
  | .refused r => .refused r

/-- What one host event does. -/
def runEvent (e : HostEvent) (s : State) : Host.Outcome State Fault Refusal :=
  match e with
  | .command w overlapping => runCommand w overlapping s
  | .abandonedCommand _ overlapping => landWrites overlapping (assertReset s)
  | .writeWt write => landWrites [write] s
  | .reset => .next (assertReset s)

/-- The next event of the host, or, with none left, an idle block that holds its state (R235). -/
def nextEvent (s : State) : Host.Outcome State Fault Refusal :=
  match s.host with
  | [] => .next s
  | e :: rest => runEvent e { s with host := rest }

/-- The host's next event: issue this word, with no write overlapping it. -/
def issueNext (s : State) (w : Command) : State := { s with host := .command w [] :: s.host }

end Sys2Proof.Machine
end

