-- ==== Sys2Proof/Machine/Assembler.lean ====
section
/-! DEFINITION. The assembler syntax of spec/30_encoding.md R90: one command per line,
`MNEMONIC [operand (, operand)]`, `;` starts a comment.  It is notation for words; no step reads it. -/

namespace Sys2Proof.Machine

open Sys2Proof

/-- The name of a mnemonic (R83). -/
def mnemonicName : Mnemonic → String
  | .sadd => "SADD"
  | .smul => "SMUL"
  | .snmul => "SNMUL"
  | .sclip => "SCLIP"
  | .lfsr16Next => "LFSR16_NEXT"
  | .lfsr32Next => "LFSR32_NEXT"
  | .noiseTick => "NOISE_TICK"
  | .oscTick => "OSC_TICK"
  | .oscStart => "OSC_START"
  | .oscStop => "OSC_STOP"
  | .oscReset => "OSC_RESET"
  | .oscResetStart => "OSC_RESET_START"
  | .oscStopReset => "OSC_STOP_RESET"
  | .oscSetFreq => "OSC_SET_FREQ"
  | .oscSetRate => "OSC_SET_RATE"
  | .oscGetRate => "OSC_GET_RATE"
  | .oscSetTable => "OSC_SET_TABLE"
  | .oscSetRepeat => "OSC_SET_REPEAT"
  | .fltTick => "FLT_TICK"
  | .fltSetFreq => "FLT_SET_FREQ"
  | .fltSetRes => "FLT_SET_RES"
  | .fltSetRate => "FLT_SET_RATE"
  | .fltGetRate => "FLT_GET_RATE"
  | .rdreg => "RDREG"

/-- The name of a register (spec/10_state.md R23; `OSC_CTRL` for 0x10, R90). -/
def registerName : Reg → String
  | .faultCause => "FAULT_CAUSE"
  | .faultInfo => "FAULT_INFO"
  | .oscCtrl => "OSC_CTRL"
  | .oscPhase => "OSC_PHASE"
  | .oscFreq => "OSC_FREQ"
  | .oscRate => "OSC_RATE"
  | .oscAlpha => "OSC_ALPHA"
  | .oscDelta => "OSC_DELTA"
  | .oscTbase => "OSC_TBASE"
  | .oscTlen => "OSC_TLEN"
  | .oscIndex => "OSC_INDEX"
  | .fltLp => "FLT_LP"
  | .fltBp => "FLT_BP"
  | .fltHp => "FLT_HP"
  | .fltFreq => "FLT_FREQ"
  | .fltRate => "FLT_RATE"
  | .fltFt => "FLT_FT"
  | .fltQinv => "FLT_QINV"
  | .fltNotch => "FLT_NOTCH"
  | .lfsr16 => "LFSR16"
  | .lfsr32 => "LFSR32"

/-- What a line assembles to. -/
inductive Assembled where
  /-- Nothing but space or a comment. -/
  | blank
  | word (w : Command)
  /-- The assembler refuses the line (R90). -/
  | refusedLine
deriving DecidableEq, Repr

/-- The line up to its comment. -/
def dropComment (l : List Char) : List Char := l.takeWhile (fun c => c != ';')

/-- Space around operands is not significant. -/
def isBlankChar (c : Char) : Bool := c == ' ' || c == '\t'

/-- A text without the space around it. -/
def trimChars (l : List Char) : List Char :=
  ((l.dropWhile isBlankChar).reverse.dropWhile isBlankChar).reverse

/-- The pieces of a text between commas. -/
def splitCommas : List Char → List (List Char)
  | [] => [[]]
  | c :: rest =>
    if c == ',' then [] :: splitCommas rest
    else match splitCommas rest with
      | piece :: more => (c :: piece) :: more
      | [] => [[c]]

/-- The value of a digit, decimal or hex. -/
def digitValue (c : Char) : Option Nat :=
  if '0' ≤ c && c ≤ '9' then some (c.toNat - 48)
  else if 'a' ≤ c && c ≤ 'f' then some (c.toNat - 87)
  else if 'A' ≤ c && c ≤ 'F' then some (c.toNat - 55)
  else none

/-- A natural number in a base, from an accumulator; `none` at a character that is no digit of it. -/
def digitsFrom (base : Nat) : Nat → List Char → Option Nat
  | acc, [] => some acc
  | acc, c :: rest =>
    match digitValue c with
    | some d => if d < base then digitsFrom base (acc * base + d) rest else none
    | none => none

/-- At least one digit of the base. -/
def digits (base : Nat) (l : List Char) : Option Nat :=
  if l.isEmpty then none else digitsFrom base 0 l

/-- An operand: decimal, optionally signed, or `0x` hex (R90). -/
def parseInteger : List Char → Option Int
  | '0' :: 'x' :: rest => (digits 16 rest).map Int.ofNat
  | '-' :: rest => (digits 10 rest).map (fun n => -(n : Int))
  | '+' :: rest => (digits 10 rest).map Int.ofNat
  | l => (digits 10 l).map Int.ofNat

/-- An unsigned operand of `n` bits, which must fit its field (R90). -/
def unsignedOperand (n : Nat) (l : List Char) : Option (BitVec n) :=
  match parseInteger l with
  | some v => if 0 ≤ v && v < (2 ^ n : Nat) then some (BitVec.ofInt n v) else none
  | none => none

/-- A Sample operand, which must lie in [-32768, 32767] (R90). -/
def sampleOperand (l : List Char) : Option Sample :=
  match parseInteger l with
  | some v => if -32768 ≤ v && v ≤ 32767 then some (BitVec.ofInt 16 v) else none
  | none => none

/-- RDREG's operand: a number, or the name of a register (R90). -/
def registerOperand (l : List Char) : Option (BitVec 8) :=
  match Reg.all.find? (fun r => (registerName r).toList == l) with
  | some r => some r.number
  | none => unsignedOperand 8 l

/-- A command of form `ss` from its operand texts. -/
def asmTwoSamples (mk : Sample → Sample → Instr) : List (List Char) → Option Instr
  | [x, y] =>
    match sampleOperand x, sampleOperand y with
    | some a, some b => some (mk a b)
    | _, _ => none
  | _ => none

/-- A command of form `s`. -/
def asmOneSample (mk : Sample → Instr) : List (List Char) → Option Instr
  | [x] => (sampleOperand x).map mk
  | _ => none

/-- A command with one unsigned operand of `n` bits. -/
def asmUnsigned (n : Nat) (mk : BitVec n → Instr) : List (List Char) → Option Instr
  | [x] => (unsignedOperand n x).map mk
  | _ => none

/-- A command without operands. -/
def asmPlain (i : Instr) : List (List Char) → Option Instr
  | [] => some i
  | _ => none

/-- OSC_SET_TABLE from its base and length. -/
def asmTable : List (List Char) → Option Instr
  | [x, y] =>
    match unsignedOperand 32 x, unsignedOperand 16 y with
    | some base, some len => some (.oscSetTable base len)
    | _, _ => none
  | _ => none

/-- RDREG from a number or a register name. -/
def asmRdreg : List (List Char) → Option Instr
  | [x] => (registerOperand x).map .rdreg
  | _ => none

/-- The operand list of each mnemonic (R90). -/
def asmOperands : Mnemonic → List (List Char) → Option Instr
  | .sadd => asmTwoSamples .sadd
  | .smul => asmTwoSamples .smul
  | .snmul => asmTwoSamples .snmul
  | .sclip => asmOneSample .sclip
  | .lfsr16Next => asmPlain .lfsr16Next
  | .lfsr32Next => asmPlain .lfsr32Next
  | .noiseTick => asmPlain .noiseTick
  | .oscTick => asmPlain .oscTick
  | .oscStart => asmPlain .oscStart
  | .oscStop => asmPlain .oscStop
  | .oscReset => asmPlain .oscReset
  | .oscResetStart => asmPlain .oscResetStart
  | .oscStopReset => asmPlain .oscStopReset
  | .oscSetFreq => asmUnsigned 32 .oscSetFreq
  | .oscSetRate => asmUnsigned 32 .oscSetRate
  | .oscGetRate => asmPlain .oscGetRate
  | .oscSetTable => asmTable
  | .oscSetRepeat => asmUnsigned 1 (fun f => .oscSetRepeat (f.getLsbD 0))
  | .fltTick => asmOneSample .fltTick
  | .fltSetFreq => asmUnsigned 32 .fltSetFreq
  | .fltSetRes => asmUnsigned 32 .fltSetRes
  | .fltSetRate => asmUnsigned 32 .fltSetRate
  | .fltGetRate => asmPlain .fltGetRate
  | .rdreg => asmRdreg

/-- The operand texts after a mnemonic: none when nothing follows it. -/
def operandTexts (l : List Char) : List (List Char) :=
  if (trimChars l).isEmpty then [] else (splitCommas l).map trimChars

/-- Assemble the characters of a line that is not blank. -/
def assembleCommand (l : List Char) : Assembled :=
  let name := l.takeWhile (fun c => !isBlankChar c)
  match Mnemonic.all.find? (fun m => (mnemonicName m).toList == name) with
  | none => .refusedLine
  | some m =>
    match asmOperands m (operandTexts (l.dropWhile (fun c => !isBlankChar c))) with
    | none => .refusedLine
    | some i => .word (encode i)

/-- Assemble one line (R90). -/
def assembleLine (line : String) : Assembled :=
  let l := trimChars (dropComment line.toList)
  if l.isEmpty then .blank else assembleCommand l

end Sys2Proof.Machine
end

