-- ==== Sys2Proof/Safety.lean ====
section
/-! DEFINITION. What counts as a safe run: the invariants of spec/10_state.md section 8, and the host contract of
spec/60_exceptions.md R240. -/

namespace Sys2Proof.Machine

open Sys2Proof

/-- The derived registers agree with their inputs (R46). -/
structure DerivedAgree (s : State) : Prop where
  alpha : s.osc.alpha.toNat = alphaOf s.osc.rate.toNat
  delta : s.osc.delta.toNat = scale s.osc.freq.toNat s.osc.rate.toNat s.osc.alpha.toNat
  ft    : s.flt.ft.toNat = ftOf s.flt.freq.toNat s.flt.rate.toNat
  qinv  : s.flt.qinv.toNat ≤ Config.fltNorm

/-- The registers stay in the ranges the spec gives them (R24, R25, R47, R48, R49). -/
structure RangesHold (s : State) : Prop where
  phase     : s.osc.phase.toNat < Config.phiMax
  oscRate   : s.osc.rate ≠ 0#32
  fltRate   : s.flt.rate ≠ 0#32
  lfsr16    : s.lfsr16 ≠ 0#16
  lfsr32    : s.lfsr32 ≠ 0#32
  cause     : s.fault.cause.toNat ≤ 2
  faultInfo : s.fault.cause = 0#4 → s.fault.info = 0#64

/-- WT is in canonical form and holds only entries that exist, and no command is in progress. -/
structure WtHolds (s : State) : Prop where
  wf      : Memory.wf s.wt
  inside  : ∀ c ∈ s.wt, c.1 < 2 * s.params.wtSize
  idle    : s.overlap = []

/-- The invariant of the machine between steps. -/
structure Inv (s : State) : Prop where
  derived : DerivedAgree s
  ranges  : RangesHold s
  wt      : WtHolds s
  params  : s.params.wf

/-- A host write goes to an entry that exists (R60). -/
def WtWrite.inside (p : Params) (w : WtWrite) : Prop := w.addr.toNat < p.wtSize

/-- An event of a host that keeps R240 (1) and (2): no WT write while a command executes, and writes only to
entries that exist. -/
def HostEvent.keepsContract (p : Params) : HostEvent → Prop
  | .command _ overlapping => overlapping = []
  | .abandonedCommand _ overlapping => overlapping = []
  | .writeWt write => write.inside p
  | .reset => True

/-- R240 (3) and (4): a table of at least one entry whose range lies inside WT, and, for a Looping oscillator,
an increment below PHI_MAX. -/
structure OscReady (s : State) : Prop where
  tableNonempty : 0 < s.osc.tlen.toNat
  tableInside   : s.osc.tbase.toNat + s.osc.tlen.toNat ≤ s.params.wtSize
  increment     : s.osc.looping = true → s.osc.delta.toNat < Config.phiMax

/-- A word a faulted block still executes: a legal RDREG (R223). -/
def isLegalRdreg (w : Command) : Prop := ∃ r, decode w = .legal (.rdreg r)

/-- The commands R23 lists against a register ("written by"); reset aside.  The notch is computed on read. -/
def writersOf : Reg → List Mnemonic
  | .faultCause => [.oscTick]
  | .faultInfo => [.oscTick]
  | .oscCtrl => [.oscStart, .oscStop, .oscResetStart, .oscStopReset, .oscTick, .oscSetRepeat]
  | .oscPhase => [.oscTick, .oscReset, .oscResetStart, .oscStopReset]
  | .oscFreq => [.oscSetFreq]
  | .oscRate => [.oscSetRate]
  | .oscAlpha => [.oscSetRate]
  | .oscDelta => [.oscSetFreq, .oscSetRate]
  | .oscTbase => [.oscSetTable]
  | .oscTlen => [.oscSetTable]
  | .oscIndex => [.oscTick]
  | .fltLp => [.fltTick]
  | .fltBp => [.fltTick]
  | .fltHp => [.fltTick]
  | .fltFreq => [.fltSetFreq]
  | .fltRate => [.fltSetRate]
  | .fltFt => [.fltSetFreq, .fltSetRate]
  | .fltQinv => [.fltSetRes]
  | .fltNotch => [.fltTick]
  | .lfsr16 => [.lfsr16Next]
  | .lfsr32 => [.lfsr32Next, .noiseTick]

/-- A sequence of commands, each to completion before the next begins (R260). -/
def runSeq : List Instr → State → Host.Outcome State Fault Refusal
  | [], s => .next s
  | i :: rest, s =>
    match exec i s with
    | .next t => runSeq rest t
    | .fault r => .fault r
    | .refused r => .refused r

end Sys2Proof.Machine
end

