-- ==== Sys2Proof/Certificates/Slice0/Obligations.lean ====
section
/-! DEFINITION. The statements for the provers, one `def Obligations.<Name> : Prop` each.  They are written from the
numbered rules of spec/, with the rules' own constants and formulas rather than the model's helpers. -/

open Sys2Proof
open Sys2Proof.Machine

/-! ### Reset and the invariant -/

/-- R250: reset sets every register to its reset value, all together; WT is not touched, the OPEN values are
the parameters, and R46 to R49 hold from then on. -/
def Obligations.ResetSetsEveryRegister : Prop :=
  ∀ (s : State) (rest : List HostEvent),
    ∃ t, step { s with host := .reset :: rest } = .next t ∧
      (t.fault.cause = 0#4 ∧ t.fault.info = 0#64) ∧
      (t.osc.running = false ∧ t.osc.looping = s.params.resetRepeat ∧ t.osc.phase = 0#32 ∧
        t.osc.freq = 0#32 ∧ t.osc.delta = 0#64 ∧ t.osc.index = 0#16 ∧ t.osc.rate = 44100000#32 ∧
        t.osc.alpha = 1595663#64 ∧ t.osc.tbase = s.params.resetTbase ∧ t.osc.tlen = s.params.resetTlen) ∧
      (t.flt.lp = 0#16 ∧ t.flt.bp = 0#16 ∧ t.flt.hp = 0#16 ∧ readReg t .fltNotch = 0#64 ∧
        t.flt.freq = 0#32 ∧ t.flt.ft = 0#64 ∧ t.flt.rate = 44100000#32 ∧ t.flt.qinv = 67108864#64) ∧
      (t.lfsr16 = 0xACE1#16 ∧ t.lfsr32 = 0x0000ACE1#32) ∧
      (t.wt = s.wt ∧ t.params = s.params) ∧
      (DerivedAgree t ∧ RangesHold t)

/-- R252: a command in progress when reset is asserted leaves the state that reset between commands leaves and
gets no response, and only reset clears a fault. -/
def Obligations.ResetAbandonsCommand : Prop :=
  (∀ (s : State) (w : Command) (rest : List HostEvent),
    ∃ t, step { s with host := .abandonedCommand w [] :: rest } = .next t ∧
      step { s with host := .reset :: rest } = .next t ∧ t.response = none) ∧
  (∀ s t : State, s.fault.cause ≠ 0#4 → step s = .next t → t.fault.cause = 0#4 →
    ∃ e rest, s.host = e :: rest ∧ (e = .reset ∨ ∃ w ws, e = .abandonedCommand w ws))

/-- R46 to R49 and the memory's canonical form hold of the reset state, for every legal choice of the OPEN
parameters. -/
def Obligations.ResetEstablishesInvariant : Prop :=
  ∀ p : Params, p.wf → Inv (State.resetWith p)

/-- Every step keeps the invariant: derived registers agree with their inputs, the phase stays below PHI_MAX,
the rates and the LFSRs stay non-zero, FAULT_INFO is 0 while there is no fault, WT stays canonical and holds only
entries that exist. -/
def Obligations.StepKeepsInvariant : Prop :=
  ∀ s t : State, Inv s → step s = .next t → Inv t

/-! ### Command words -/

/-- Decoding the word of a well-formed instruction gives the instruction back, with every operand. -/
def Obligations.DecodeEncodeRoundTrip : Prop :=
  ∀ i : Instr, i.wf = true → decode (encode i) = .legal i

/-- Encoding what a legal word decodes to gives the word back: no bit of a legal word is dropped. -/
def Obligations.EncodeDecodeRoundTrip : Prop :=
  ∀ (w : Command) (i : Instr), decode w = .legal i → encode i = w ∧ i.wf = true

/-- R83, R85: the decoder reads a command from exactly the words that one row of the opcode map selects, RDREG's
number being a register's; no word selects two rows. -/
def Obligations.DecoderFollowsOpcodeMap : Prop :=
  (∀ (w : Command) (m : Mnemonic),
    (∃ i, decode w = .legal i ∧ i.mnemonic = m) ↔
      ∃ row ∈ opcodeTable, row.mnemonic = m ∧ w &&& row.mask = row.pattern ∧
        (m = .rdreg → legalRegNumber (w.extractLsb' 0 8) = true)) ∧
  (∀ (w : Command), ∀ row₁ ∈ opcodeTable, ∀ row₂ ∈ opcodeTable,
    w &&& row₁.mask = row₁.pattern → w &&& row₂.mask = row₂.pattern → row₁ = row₂)

/-- R84: a word is illegal when its opcode is unassigned, RSV is not 0, an operand bit its form does not use is 1,
or it is an RDREG of a number that names no register, and in no other case. -/
def Obligations.IllegalInExactlyFourCases : Prop :=
  ∀ w : Command,
    (∃ why, decode w = .illegal why) ↔
      (∀ m : Mnemonic, m.op ≠ w.extractLsb' 56 8) ∨
      w.extractLsb' 48 8 ≠ 0#8 ∨
      (∃ m : Mnemonic, m.op = w.extractLsb' 56 8 ∧ w &&& m.form.unusedMask ≠ 0#64) ∨
      (w.extractLsb' 56 8 = 0xF0#8 ∧ legalRegNumber (w.extractLsb' 0 8) = false)

/-- R92: the worked encodings, from assembler text to word to instruction. -/
def Obligations.WorkedEncodings : Prop :=
  (assembleLine "SADD 30000, 10000" = .word 0x1000000075302710#64 ∧
    decode 0x1000000075302710#64 = .legal (.sadd 30000#16 10000#16)) ∧
  (assembleLine "SNMUL -32768, -32768" = .word 0x1200000080008000#64 ∧
    decode 0x1200000080008000#64 = .legal (.snmul 0x8000#16 0x8000#16)) ∧
  (assembleLine "SCLIP -1" = .word 0x130000000000FFFF#64 ∧
    decode 0x130000000000FFFF#64 = .legal (.sclip 0xFFFF#16)) ∧
  (assembleLine "OSC_SET_RATE 100000" = .word 0x37000000000186A0#64 ∧
    decode 0x37000000000186A0#64 = .legal (.oscSetRate 100000#32)) ∧
  (assembleLine "OSC_SET_FREQ 2000" = .word 0x36000000000007D0#64 ∧
    decode 0x36000000000007D0#64 = .legal (.oscSetFreq 2000#32)) ∧
  (assembleLine "OSC_SET_TABLE 0x100, 4" = .word 0x3900000400000100#64 ∧
    decode 0x3900000400000100#64 = .legal (.oscSetTable 0x100#32 4#16)) ∧
  (assembleLine "OSC_SET_REPEAT 1" = .word 0x3A00000000000001#64 ∧
    decode 0x3A00000000000001#64 = .legal (.oscSetRepeat true)) ∧
  (assembleLine "FLT_TICK -5" = .word 0x400000000000FFFB#64 ∧
    decode 0x400000000000FFFB#64 = .legal (.fltTick 0xFFFB#16)) ∧
  (assembleLine "FLT_SET_FREQ 1000000" = .word 0x41000000000F4240#64 ∧
    decode 0x41000000000F4240#64 = .legal (.fltSetFreq 1000000#32)) ∧
  (assembleLine "RDREG OSC_PHASE" = .word 0xF000000000000011#64 ∧
    decode 0xF000000000000011#64 = .legal (.rdreg 0x11#8))

/-! ### Issuing a word -/

/-- A step whose host event is a word that decodes to `i` is `exec i`, with the event taken and no command left in
progress; host writes that overlap the command are visible to it as such, and land when it has completed. -/
def Obligations.StepRunsDecodedInstruction : Prop :=
  ∀ (s : State) (w : Command) (i : Instr) (rest : List HostEvent), decode w = .legal i →
    step { s with host := .command w [] :: rest } = exec i { s with host := rest, overlap := [] } ∧
    ∀ ws : List WtWrite,
      step { s with host := .command w ws :: rest } =
        match exec i { s with host := rest, overlap := ws } with
        | .next t => landWrites ws { t with overlap := [] }
        | .fault r => .fault r
        | .refused r => .refused r

/-- R86, R87: every word, legal or not, is answered by one response, and its RESULT is 0 unless its status is OK. -/
def Obligations.EveryWordAnswered : Prop :=
  ∀ (w : Command) (s : State),
    ∃ t r, runWord w s = .next t ∧ t.response = some r ∧ (r.status ≠ .ok → r.result = 0#64)

/-- Every instruction answers a next state from every state: no command stops the machine. -/
def Obligations.EveryInstructionCompletes : Prop :=
  ∀ (i : Instr) (s : State), ∃ t, exec i s = .next t

/-- R224: an illegal word of a block that is not faulted is answered ILLEGAL with RESULT 0 and changes no state; in
particular the block is still not faulted. -/
def Obligations.IllegalWordChangesNothing : Prop :=
  ∀ (w : Command) (why : IllegalReason) (s : State), decode w = .illegal why → s.fault.cause = 0#4 →
    runWord w s = .next { s with response := some { status := .illegal, result := 0#64 } }

/-- R223: a faulted block answers every word that is not a legal RDREG with FAULT and changes no state; a legal
RDREG it still executes. -/
def Obligations.FaultedBlockExecutesOnlyRdreg : Prop :=
  ∀ (w : Command) (s : State), s.fault.cause ≠ 0#4 →
    (¬ isLegalRdreg w → runWord w s = .next { s with response := some { status := .fault, result := 0#64 } }) ∧
    (isLegalRdreg w → ∃ v, runWord w s = .next { s with response := some { status := .ok, result := v } })

/-- R227: no fault occurs while the block is faulted: until reset, every step leaves FAULT_CAUSE and FAULT_INFO, and
every other register, as the first fault left them. -/
def Obligations.NoSecondFault : Prop :=
  ∀ s t : State, s.fault.cause ≠ 0#4 → step s = .next t →
    (∀ e rest, s.host = e :: rest → e ≠ .reset ∧ ∀ w ws, e ≠ .abandonedCommand w ws) →
    t.fault = s.fault ∧ t.osc = s.osc ∧ t.flt = s.flt ∧ t.lfsr16 = s.lfsr16 ∧ t.lfsr32 = s.lfsr32

/-- R220, R222: only OSC_TICK raises a fault, from a block that is not faulted and a Running oscillator.  The cause is
INDEX_RANGE with the index, or WT_ADDR with the address; nothing the tick staged survives, and the answer is FAULT. -/
def Obligations.OnlyTickRaisesFault : Prop :=
  ∀ (i : Instr) (s t : State), exec i s = .next t → t.fault ≠ s.fault →
    i = .oscTick ∧ s.fault.cause = 0#4 ∧ s.osc.running = true ∧
      ∃ p idx : Nat,
        p = (if 1048576 ≤ s.osc.phase.toNat + s.osc.delta.toNat
              then s.osc.phase.toNat + s.osc.delta.toNat - 1048576
              else s.osc.phase.toNat + s.osc.delta.toNat) ∧
        idx = s.osc.tlen.toNat * p / 1048576 ∧
        ((s.osc.tlen.toNat ≤ idx ∧
            t = { s with
              fault := { cause := 1#4, info := BitVec.ofNat 64 idx }
              response := some { status := .fault, result := 0#64 } }) ∨
          (idx < s.osc.tlen.toNat ∧ s.params.wtSize ≤ s.osc.tbase.toNat + idx ∧
            t = { s with
              fault := { cause := 2#4, info := BitVec.ofNat 64 (s.osc.tbase.toNat + idx) }
              response := some { status := .fault, result := 0#64 } }))

/-- R221: a command is answered REJECTED only when it sets a sample rate to 0; it then changes no state. -/
def Obligations.RejectedOnlyAtRateZero : Prop :=
  ∀ (i : Instr) (s : State), s.fault.cause = 0#4 →
    ((∃ t r, exec i s = .next t ∧ t.response = some { status := .rejected, result := r }) ↔
      i = .oscSetRate 0#32 ∨ i = .fltSetRate 0#32) ∧
    ((i = .oscSetRate 0#32 ∨ i = .fltSetRate 0#32) →
      exec i s = .next { s with response := some { status := .rejected, result := 0#64 } })

/-! ### What commands leave alone -/

/-- R23, R54: a command changes only registers it is listed against; RUNNING and REPEAT each have their own list. -/
def Obligations.OnlyListedCommandsWrite : Prop :=
  ∀ (i : Instr) (s t : State), exec i s = .next t →
    (∀ reg : Reg, i.mnemonic ∉ writersOf reg → readReg t reg = readReg s reg) ∧
    (t.osc.running ≠ s.osc.running →
      i.mnemonic ∈ [Mnemonic.oscStart, .oscStop, .oscResetStart, .oscStopReset, .oscTick]) ∧
    (t.osc.looping ≠ s.osc.looping → i.mnemonic = .oscSetRepeat)

/-- R60, R52: no command writes WT: every byte of it reads as before; the parameters, the host's events and its writes
in progress are unchanged too. -/
def Obligations.CommandsLeaveWtAlone : Prop :=
  ∀ (i : Instr) (s t : State), exec i s = .next t →
    t.wt = s.wt ∧ (∀ a, t.wt.byte a = s.wt.byte a) ∧ t.params = s.params ∧ t.host = s.host ∧
      t.overlap = s.overlap

/-- R60: only OSC_TICK reads WT: any other command does the same whatever WT holds. -/
def Obligations.OnlyTickReadsWt : Prop :=
  ∀ (i : Instr) (s : State) (m : Memory), i ≠ .oscTick →
    ∃ t, exec i s = .next t ∧ exec i { s with wt := m } = .next { t with wt := m }

/-! ### The host and its memory -/

/-- R235: with no event of the host the block is idle and holds its state. -/
def Obligations.IdleBlockHoldsState : Prop :=
  ∀ s : State, s.host = [] → step s = .next s

/-- R60 to R62, R67: a host write between commands changes the one entry, low byte first, and nothing else; later
reads see it. -/
def Obligations.HostWriteChangesOneEntry : Prop :=
  ∀ (s : State) (w : WtWrite) (rest : List HostEvent), w.addr.toNat < s.params.wtSize →
    ∃ m, step { s with host := .writeWt w :: rest } = .next { s with host := rest, wt := m } ∧
      Memory.entry m w.addr.toNat = w.value ∧
      Memory.byte m (2 * w.addr.toNat) = w.value.extractLsb' 0 8 ∧
      Memory.byte m (2 * w.addr.toNat + 1) = w.value.extractLsb' 8 8 ∧
      (∀ a, a ≠ w.addr.toNat → Memory.entry m a = s.wt.entry a) ∧
      (∀ a, a ≠ 2 * w.addr.toNat → a ≠ 2 * w.addr.toNat + 1 → Memory.byte m a = s.wt.byte a) ∧
      (Memory.wf s.wt → Memory.wf m)

/-- Entries at or above WT_SIZE do not exist (R60); that a host write to one stops the model is the model's own choice
(log entry 10). -/
def Obligations.AbsentEntryWriteStops : Prop :=
  ∀ (s : State) (w : WtWrite) (rest : List HostEvent), s.params.wtSize ≤ w.addr.toNat →
    step { s with host := .writeWt w :: rest } = .fault .wtEntryAbsent

/-- R240 (1), (2): no event of a host that keeps the contract stops the machine. -/
def Obligations.ContractKeepingHostNeverStops : Prop :=
  ∀ (s : State) (e : HostEvent) (rest : List HostEvent), s.host = e :: rest → e.keepsContract s.params →
    ∃ t, step s = .next t ∧ t.host = rest ∧ t.params = s.params

/-! ### Sample arithmetic -/

/-- R110: SADD is the sum saturated to the Sample range; no register changes. -/
def Obligations.SaddSaturates : Prop :=
  ∀ (a b : Sample) (s : State),
    decode (commandWord 0x10#8 0#16 (a ++ b)) = .legal (.sadd a b) ∧
    (s.fault.cause = 0#4 →
      exec (.sadd a b) s = .next { s with
        response := some {
          status := .ok
          result := (BitVec.ofInt 16 (max (-32768) (min 32767 (a.toInt + b.toInt)))).setWidth 64 } })

/-- R111: SMUL is the plain integer product saturated to the Sample range; no register changes. -/
def Obligations.SmulSaturates : Prop :=
  ∀ (a b : Sample) (s : State),
    decode (commandWord 0x11#8 0#16 (a ++ b)) = .legal (.smul a b) ∧
    (s.fault.cause = 0#4 →
      exec (.smul a b) s = .next { s with
        response := some {
          status := .ok
          result := (BitVec.ofInt 16 (max (-32768) (min 32767 (a.toInt * b.toInt)))).setWidth 64 } })

/-- R112: SNMUL is the product divided by 32768 toward zero, saturated; no register changes. -/
def Obligations.SnmulNormalizes : Prop :=
  ∀ (a b : Sample) (s : State),
    decode (commandWord 0x12#8 0#16 (a ++ b)) = .legal (.snmul a b) ∧
    (s.fault.cause = 0#4 →
      exec (.snmul a b) s = .next { s with
        response := some {
          status := .ok
          result := (BitVec.ofInt 16
            (max (-32768) (min 32767 ((a.toInt * b.toInt).tdiv 32768)))).setWidth 64 } })

/-- R112, corner cases: only -32768 by -32768 needs the clamp; a positive Sample times 32767 loses exactly one; times
-32768 it is negated exactly. -/
def Obligations.SnmulCornerCases : Prop :=
  (∀ a b : Sample, ¬ (a = 0x8000#16 ∧ b = 0x8000#16) →
    -32768 ≤ normalizedProduct .towardZero a.toInt b.toInt ∧
      normalizedProduct .towardZero a.toInt b.toInt ≤ 32767) ∧
  normalizedProduct .towardZero (-32768) (-32768) = 32768 ∧
  (∀ x : Int, 0 < x → x ≤ 32767 → normalizedProduct .towardZero x 32767 = x - 1) ∧
  (∀ x : Int, normalizedProduct .towardZero x (-32768) = -x)

/-- R113: SCLIP is true only at the exact extremes 32767 and -32768; no register changes. -/
def Obligations.SclipOnlyAtExtremes : Prop :=
  ∀ (a : Sample) (s : State),
    decode (commandWord 0x13#8 0#16 (0#16 ++ a)) = .legal (.sclip a) ∧
    (s.fault.cause = 0#4 →
      exec (.sclip a) s = .next { s with
        response := some {
          status := .ok
          result := if a = 0x8000#16 ∨ a = 0x7FFF#16 then 1#64 else 0#64 } })

/-- R114: the four Sample commands are pure functions of their operands: two live blocks, whatever their registers,
answer the same, and neither changes a register. -/
def Obligations.SampleCommandsArePure : Prop :=
  ∀ i : Instr, i.mnemonic ∈ [Mnemonic.sadd, .smul, .snmul, .sclip] →
    ∃ r : Result, ∀ s : State, s.fault.cause = 0#4 →
      exec i s = .next { s with response := some { status := .ok, result := r } }

/-! ### LFSR and noise -/

/-- R132: LFSR16_NEXT shifts right, XORs 0xB400 in when the discarded bit was 1, stores and returns the new value. -/
def Obligations.Lfsr16Advances : Prop :=
  decode 0x2000000000000000#64 = .legal .lfsr16Next ∧
  ∀ (s : State) (r : BitVec 16),
    r = (s.lfsr16 >>> 1) ^^^ (if s.lfsr16.getLsbD 0 then 0xB400#16 else 0#16) → s.fault.cause = 0#4 →
      exec .lfsr16Next s = .next { s with
        lfsr16 := r
        response := some { status := .ok, result := r.setWidth 64 } }

/-- R133: LFSR32_NEXT, with mask 0x80200003. -/
def Obligations.Lfsr32Advances : Prop :=
  decode 0x2100000000000000#64 = .legal .lfsr32Next ∧
  ∀ (s : State) (r : BitVec 32),
    r = (s.lfsr32 >>> 1) ^^^ (if s.lfsr32.getLsbD 0 then 0x80200003#32 else 0#32) → s.fault.cause = 0#4 →
      exec .lfsr32Next s = .next { s with
        lfsr32 := r
        response := some { status := .ok, result := r.setWidth 64 } }

/-- R134: NOISE_TICK advances the shared 32-bit register first and returns 32767 minus its low 16 bits, whose pattern
is the inverted low half with the sign bit flipped back. -/
def Obligations.NoiseTickSubtractsLowHalf : Prop :=
  decode 0x2200000000000000#64 = .legal .noiseTick ∧
  ∀ (s : State) (r : BitVec 32),
    r = (s.lfsr32 >>> 1) ^^^ (if s.lfsr32.getLsbD 0 then 0x80200003#32 else 0#32) → s.fault.cause = 0#4 →
      exec .noiseTick s = .next { s with
        lfsr32 := r
        response := some {
          status := .ok
          result := (BitVec.ofInt 16 (32767 - ((r.extractLsb' 0 16).toNat : Int))).setWidth 64 } } ∧
      BitVec.ofInt 16 (32767 - ((r.extractLsb' 0 16).toNat : Int)) =
        (~~~ (r.extractLsb' 0 16)) ^^^ 0x8000#16

/-- R49, R130: each LFSR step is a permutation that fixes 0, so a non-zero register stays non-zero. -/
def Obligations.LfsrStepsPermute : Prop :=
  Function.Bijective nextLfsr16 ∧ Function.Bijective nextLfsr32 ∧
  (∀ r, nextLfsr16 r = 0#16 ↔ r = 0#16) ∧ (∀ r, nextLfsr32 r = 0#32 ↔ r = 0#32)

/-- R131 for n = 16: from any non-zero value the register visits every non-zero value, and its period is 65 535. -/
def Obligations.Lfsr16FullPeriod : Prop :=
  ∀ r : BitVec 16, r ≠ 0#16 →
    nextLfsr16^[65535] r = r ∧
    (∀ k, 0 < k → k < 65535 → nextLfsr16^[k] r ≠ r) ∧
    (∀ v : BitVec 16, v ≠ 0#16 → ∃ k, k < 65535 ∧ nextLfsr16^[k] r = v)

/-- R131 for n = 32: the period of any non-zero value is 2^32 - 1. -/
def Obligations.Lfsr32FullPeriod : Prop :=
  ∀ r : BitVec 32, r ≠ 0#32 →
    nextLfsr32^[4294967295] r = r ∧ ∀ k, 0 < k → k < 4294967295 → nextLfsr32^[k] r ≠ r

/-! ### Oscillator -/

/-- R152, R153: OSC_TICK by its pseudocode.  Stopped: NONE, nothing changes.  Otherwise the phase advances by OSC_DELTA;
at PHI_MAX it wraps once, which stops a OneShot oscillator at phase 0; else the entry at index (OSC_TLEN * p) // PHI_MAX
is returned, or INDEX_RANGE or WT_ADDR is raised, in that order, with no other write.  (The tick whose read a host
write overlaps is OverlappedReadIsFree.) -/
def Obligations.OscTickFollowsPseudocode : Prop :=
  decode 0x3000000000000000#64 = .legal .oscTick ∧
  ∀ s : State, s.fault.cause = 0#4 →
    (s.osc.running = false →
      exec .oscTick s = .next { s with response := some { status := .noSample, result := 0#64 } }) ∧
    (s.osc.running = true → 1048576 ≤ s.osc.phase.toNat + s.osc.delta.toNat → s.osc.looping = false →
      exec .oscTick s = .next { s with
        osc := { s.osc with running := false, phase := 0#32 }
        response := some { status := .noSample, result := 0#64 } }) ∧
    ∀ p idx addr : Nat, s.osc.running = true →
      ((s.osc.phase.toNat + s.osc.delta.toNat < 1048576 ∧ p = s.osc.phase.toNat + s.osc.delta.toNat) ∨
        (s.osc.looping = true ∧ p + 1048576 = s.osc.phase.toNat + s.osc.delta.toNat)) →
      idx = s.osc.tlen.toNat * p / 1048576 → addr = s.osc.tbase.toNat + idx →
      (s.osc.tlen.toNat ≤ idx →
        exec .oscTick s = .next { s with
          fault := { cause := 1#4, info := BitVec.ofNat 64 idx }
          response := some { status := .fault, result := 0#64 } }) ∧
      (idx < s.osc.tlen.toNat → s.params.wtSize ≤ addr →
        exec .oscTick s = .next { s with
          fault := { cause := 2#4, info := BitVec.ofNat 64 addr }
          response := some { status := .fault, result := 0#64 } }) ∧
      (idx < s.osc.tlen.toNat → addr < s.params.wtSize → (∀ w ∈ s.overlap, w.addr.toNat ≠ addr) →
        exec .oscTick s = .next { s with
          osc := { s.osc with phase := BitVec.ofNat 32 p, index := BitVec.ofNat 16 idx }
          response := some { status := .ok, result := (s.wt.entry addr).setWidth 64 } })

/-- R67, R264: a tick whose read a host write to the same entry overlaps has every other effect of a tick, and returns
a free value of 16 bits.  That draws are numbered by State.draws is the model's own choice (log entry 6). -/
def Obligations.OverlappedReadIsFree : Prop :=
  ∀ (s : State) (p idx addr : Nat), s.fault.cause = 0#4 → s.osc.running = true →
    ((s.osc.phase.toNat + s.osc.delta.toNat < 1048576 ∧ p = s.osc.phase.toNat + s.osc.delta.toNat) ∨
      (s.osc.looping = true ∧ p + 1048576 = s.osc.phase.toNat + s.osc.delta.toNat)) →
    idx = s.osc.tlen.toNat * p / 1048576 → addr = s.osc.tbase.toNat + idx →
    idx < s.osc.tlen.toNat → addr < s.params.wtSize → (∃ w ∈ s.overlap, w.addr.toNat = addr) →
    exec .oscTick s = .next { s with
      osc := { s.osc with phase := BitVec.ofNat 32 p, index := BitVec.ofNat 16 idx }
      draws := s.draws + 1
      response := some { status := .ok, result := (Config.freeSample s.draws).setWidth 64 } }

/-- R240 (3), (4): with a table of at least one entry inside WT and, when Looping, an increment below PHI_MAX, no tick
of an oscillator whose phase is in range faults: it answers OK or NONE, and the phase stays in range. -/
def Obligations.ReadyOscillatorNeverFaults : Prop :=
  ∀ s : State, s.fault.cause = 0#4 → OscReady s → s.osc.phase.toNat < 1048576 →
    ∃ t, exec .oscTick s = .next t ∧ t.fault = s.fault ∧ OscReady t ∧ t.osc.phase.toNat < 1048576 ∧
      ((∃ v, t.response = some { status := .ok, result := v }) ∨
        t.response = some { status := .noSample, result := 0#64 })

/-- R154, R155: OSC_START and OSC_STOP write only RUNNING; the phase is retained. -/
def Obligations.StartAndStop : Prop :=
  (decode 0x3100000000000000#64 = .legal .oscStart ∧ decode 0x3200000000000000#64 = .legal .oscStop) ∧
  ∀ s : State, s.fault.cause = 0#4 →
    exec .oscStart s = .next { s with
      osc := { s.osc with running := true }
      response := some { status := .ok, result := 0#64 } } ∧
    exec .oscStop s = .next { s with
      osc := { s.osc with running := false }
      response := some { status := .ok, result := 0#64 } }

/-- R156 to R158: OSC_RESET zeroes the phase alone; the two composites also write RUNNING, and end as the two commands
they compose do. -/
def Obligations.PhaseResets : Prop :=
  (decode 0x3300000000000000#64 = .legal .oscReset ∧ decode 0x3400000000000000#64 = .legal .oscResetStart ∧
    decode 0x3500000000000000#64 = .legal .oscStopReset) ∧
  ∀ s : State, s.fault.cause = 0#4 →
    exec .oscReset s = .next { s with
      osc := { s.osc with phase := 0#32 }
      response := some { status := .ok, result := 0#64 } } ∧
    exec .oscResetStart s = .next { s with
      osc := { s.osc with phase := 0#32, running := true }
      response := some { status := .ok, result := 0#64 } } ∧
    exec .oscResetStart s = runSeq [.oscReset, .oscStart] s ∧
    exec .oscStopReset s = .next { s with
      osc := { s.osc with phase := 0#32, running := false }
      response := some { status := .ok, result := 0#64 } } ∧
    exec .oscStopReset s = runSeq [.oscStop, .oscReset] s

/-- R159: OSC_SET_FREQ stores the frequency and the increment (f * OSC_ALPHA) // 2^26, which the register holds exactly
when OSC_ALPHA is in its range (R31). -/
def Obligations.SetFreqDerivesDelta : Prop :=
  ∀ (f : MilliHertz) (s : State),
    decode (commandWord 0x36#8 0#16 f) = .legal (.oscSetFreq f) ∧
    (s.fault.cause = 0#4 →
      exec (.oscSetFreq f) s = .next { s with
        osc := { s.osc with freq := f, delta := BitVec.ofNat 64 (f.toNat * s.osc.alpha.toNat / 67108864) }
        response := some { status := .ok, result := 0#64 } }) ∧
    (s.osc.alpha.toNat ≤ 70368744177664 →
      (BitVec.ofNat 64 (f.toNat * s.osc.alpha.toNat / 67108864)).toNat =
        f.toNat * s.osc.alpha.toNat / 67108864)

/-- R160: OSC_SET_RATE of a non-zero rate stores it with alpha = 2^46 // r and the increment of the stored frequency,
both exactly; rate 0 is answered REJECTED with no state change. -/
def Obligations.SetRateDerivesAlphaAndDelta : Prop :=
  ∀ (r : MilliHertz) (s : State),
    decode (commandWord 0x37#8 0#16 r) = .legal (.oscSetRate r) ∧
    (s.fault.cause = 0#4 → r = 0#32 →
      exec (.oscSetRate r) s = .next { s with response := some { status := .rejected, result := 0#64 } }) ∧
    (s.fault.cause = 0#4 → r ≠ 0#32 →
      ∃ alpha delta : Coefficient,
        alpha.toNat = 70368744177664 / r.toNat ∧
        delta.toNat = s.osc.freq.toNat * (70368744177664 / r.toNat) / 67108864 ∧
        exec (.oscSetRate r) s = .next { s with
          osc := { s.osc with rate := r, alpha := alpha, delta := delta }
          response := some { status := .ok, result := 0#64 } })

/-- R161, R194: OSC_GET_RATE and FLT_GET_RATE return their own rate in bits 31:0 and change nothing. -/
def Obligations.GetRates : Prop :=
  (decode 0x3800000000000000#64 = .legal .oscGetRate ∧ decode 0x4400000000000000#64 = .legal .fltGetRate) ∧
  ∀ s : State, s.fault.cause = 0#4 →
    exec .oscGetRate s = .next { s with
      response := some { status := .ok, result := s.osc.rate.setWidth 64 } } ∧
    exec .fltGetRate s = .next { s with
      response := some { status := .ok, result := s.flt.rate.setWidth 64 } }

/-- R162, R163: OSC_SET_TABLE stores base and length unchecked; OSC_SET_REPEAT stores the flag; nothing else changes. -/
def Obligations.SetTableAndRepeat : Prop :=
  ∀ (base : EntryAddr) (len : BitVec 16) (f : Bool) (s : State),
    decode (commandWord 0x39#8 len base) = .legal (.oscSetTable base len) ∧
    decode (commandWord 0x3A#8 0#16 (0#31 ++ BitVec.ofBool f)) = .legal (.oscSetRepeat f) ∧
    (s.fault.cause = 0#4 →
      exec (.oscSetTable base len) s = .next { s with
        osc := { s.osc with tbase := base, tlen := len }
        response := some { status := .ok, result := 0#64 } } ∧
      exec (.oscSetRepeat f) s = .next { s with
        osc := { s.osc with looping := f }
        response := some { status := .ok, result := 0#64 } })

/-- R254: the order of the rate setters and the frequency setters does not matter. -/
def Obligations.SetterOrderDoesNotMatter : Prop :=
  ∀ (s : State) (r f : MilliHertz), s.fault.cause = 0#4 → r ≠ 0#32 →
    (∃ t, runSeq [.oscSetRate r, .oscSetFreq f] s = .next t ∧
      runSeq [.oscSetFreq f, .oscSetRate r] s = .next t) ∧
    (∃ t, runSeq [.fltSetRate r, .fltSetFreq f] s = .next t ∧
      runSeq [.fltSetFreq f, .fltSetRate r] s = .next t)

/-- R165: a OneShot oscillator started at phase 0, with 0 < OSC_DELTA < PHI_MAX and no faulting entry on the way,
returns OK on exactly (PHI_MAX - 1) // OSC_DELTA ticks, with phases k * OSC_DELTA; the next tick returns NONE and stops
it at phase 0.  For OSC_DELTA = 20 971 that is 50. -/
def Obligations.OneShotCycleLength : Prop :=
  1048575 / 20971 = 50 ∧
  ∀ (s : State) (n : Nat), s.fault.cause = 0#4 → s.osc.running = true → s.osc.looping = false →
    s.osc.phase = 0#32 → 0 < s.osc.delta.toNat → s.osc.delta.toNat < 1048576 → 0 < s.osc.tlen.toNat →
    n = 1048575 / s.osc.delta.toNat →
    (∀ k, 1 ≤ k → k ≤ n →
      s.osc.tbase.toNat + s.osc.tlen.toNat * (k * s.osc.delta.toNat) / 1048576 < s.params.wtSize) →
    (∀ k, 1 ≤ k → k ≤ n →
      ∃ t v, runSeq (List.replicate k .oscTick) s = .next t ∧
        t.osc.phase.toNat = k * s.osc.delta.toNat ∧ t.osc.running = true ∧
        t.response = some { status := .ok, result := v }) ∧
    (∃ t, runSeq (List.replicate (n + 1) .oscTick) s = .next t ∧ t.osc.phase = 0#32 ∧
      t.osc.running = false ∧ t.response = some { status := .noSample, result := 0#64 })

/-- R166: with OSC_DELTA = 0 a Running oscillator returns the entry at its phase on every tick, and never wraps or
stops. -/
def Obligations.ZeroFrequencyHoldsIndex : Prop :=
  ∀ (s : State) (k idx : Nat), s.fault.cause = 0#4 → s.osc.running = true → s.osc.delta = 0#64 →
    s.osc.phase.toNat < 1048576 → idx = s.osc.tlen.toNat * s.osc.phase.toNat / 1048576 →
    0 < s.osc.tlen.toNat → s.osc.tbase.toNat + idx < s.params.wtSize → s.overlap = [] →
    runSeq (List.replicate (k + 1) .oscTick) s = .next { s with
      osc := { s.osc with index := BitVec.ofNat 16 idx }
      response := some { status := .ok, result := (s.wt.entry (s.osc.tbase.toNat + idx)).setWidth 64 } }

/-- R167: a Looping oscillator never stops, and after k ticks its phase is the start phase plus k increments, modulo
PHI_MAX.  From a phase p0 < OSC_DELTA its first wrapping tick is tick g = ceil((PHI_MAX - p0) / OSC_DELTA): the phase
only rises in the ticks before it, and that tick leaves a phase below OSC_DELTA again, so g is also the gap from one
wrap to the next; g is the floor or the ceiling of PHI_MAX / OSC_DELTA. -/
def Obligations.LoopingPhaseIsModular : Prop :=
  ∀ s : State, s.fault.cause = 0#4 → s.osc.running = true → s.osc.looping = true →
    OscReady s → s.osc.phase.toNat < 1048576 →
    (∀ k : Nat, ∃ t, runSeq (List.replicate k .oscTick) s = .next t ∧ t.osc.running = true ∧
      t.osc.phase.toNat = (s.osc.phase.toNat + k * s.osc.delta.toNat) % 1048576 ∧
      (0 < k → ∃ v, t.response = some { status := .ok, result := v })) ∧
    (∀ g : Nat, s.osc.phase.toNat < s.osc.delta.toNat →
      g = (1048576 - s.osc.phase.toNat + s.osc.delta.toNat - 1) / s.osc.delta.toNat →
      (∀ k, k < g → ∃ t, runSeq (List.replicate k .oscTick) s = .next t ∧
        t.osc.phase.toNat = s.osc.phase.toNat + k * s.osc.delta.toNat) ∧
      (∃ t, runSeq (List.replicate g .oscTick) s = .next t ∧
        t.osc.phase.toNat + 1048576 = s.osc.phase.toNat + g * s.osc.delta.toNat ∧
        t.osc.phase.toNat < s.osc.delta.toNat) ∧
      (g = 1048576 / s.osc.delta.toNat ∨ g = (1048576 + s.osc.delta.toNat - 1) / s.osc.delta.toNat))

/-! ### Filter -/

/-- R190, R195: FLT_TICK in its load-bearing order, each step cut to 16 bits by two's-complement truncation, each
division toward zero; the four outputs are packed notch, high-pass, band-pass, low-pass. -/
def Obligations.FltTickFollowsOrder : Prop :=
  ∀ (x : Sample) (s : State) (lp hp bp notch : Int),
    lp = (BitVec.ofInt 16 (s.flt.lp.toInt + ((s.flt.ft.toNat : Int) * s.flt.bp.toInt).tdiv 67108864)).toInt →
    hp = (BitVec.ofInt 16
      (x.toInt - lp - ((s.flt.qinv.toNat : Int) * s.flt.bp.toInt).tdiv 67108864)).toInt →
    bp = (BitVec.ofInt 16 (s.flt.bp.toInt + ((s.flt.ft.toNat : Int) * hp).tdiv 67108864)).toInt →
    notch = (BitVec.ofInt 16 (hp + lp)).toInt →
    decode (commandWord 0x40#8 0#16 (0#16 ++ x)) = .legal (.fltTick x) ∧
    (s.fault.cause = 0#4 →
      exec (.fltTick x) s = .next { s with
        flt := { s.flt with lp := BitVec.ofInt 16 lp, bp := BitVec.ofInt 16 bp, hp := BitVec.ofInt 16 hp }
        response := some {
          status := .ok
          result := BitVec.ofInt 16 notch ++ BitVec.ofInt 16 hp ++ BitVec.ofInt 16 bp ++ BitVec.ofInt 16 lp } })

/-- R191: FLT_SET_FREQ stores the frequency and ft = (2^26 * f) // FLT_RATE, exactly; the accumulators stay. -/
def Obligations.FltSetFreqDerivesFt : Prop :=
  ∀ (f : MilliHertz) (s : State),
    decode (commandWord 0x41#8 0#16 f) = .legal (.fltSetFreq f) ∧
    (s.fault.cause = 0#4 →
      ∃ ft : Coefficient, ft.toNat = 67108864 * f.toNat / s.flt.rate.toNat ∧
        exec (.fltSetFreq f) s = .next { s with
          flt := { s.flt with freq := f, ft := ft }
          response := some { status := .ok, result := 0#64 } })

/-- R192: FLT_SET_RES stores q_inv = 2^26 - min(r, 2^26): resonance above the maximum clamps. -/
def Obligations.FltSetResClamps : Prop :=
  ∀ (r : BitVec 32) (s : State),
    decode (commandWord 0x42#8 0#16 r) = .legal (.fltSetRes r) ∧
    (s.fault.cause = 0#4 →
      ∃ qinv : Coefficient, qinv.toNat = 67108864 - min r.toNat 67108864 ∧
        exec (.fltSetRes r) s = .next { s with
          flt := { s.flt with qinv := qinv }
          response := some { status := .ok, result := 0#64 } })

/-- R193: FLT_SET_RATE of a non-zero rate stores it with ft = (2^26 * FLT_FREQ) // r, exactly; rate 0 is answered
REJECTED with no state change. -/
def Obligations.FltSetRateDerivesFt : Prop :=
  ∀ (r : MilliHertz) (s : State),
    decode (commandWord 0x43#8 0#16 r) = .legal (.fltSetRate r) ∧
    (s.fault.cause = 0#4 → r = 0#32 →
      exec (.fltSetRate r) s = .next { s with response := some { status := .rejected, result := 0#64 } }) ∧
    (s.fault.cause = 0#4 → r ≠ 0#32 →
      ∃ ft : Coefficient, ft.toNat = 67108864 * s.flt.freq.toNat / r.toNat ∧
        exec (.fltSetRate r) s = .next { s with
          flt := { s.flt with rate := r, ft := ft }
          response := some { status := .ok, result := 0#64 } })

/-- R196: ft does not fall with the frequency and does not rise with the rate, and doubling the sample rate at a fixed
frequency gives exactly half of the old ft, rounded down. -/
def Obligations.DoublingRateHalvesFt : Prop :=
  (∀ f f' rate : Nat, f ≤ f' → ftOf f rate ≤ ftOf f' rate) ∧
  (∀ f rate rate' : Nat, 0 < rate → rate ≤ rate' → ftOf f rate' ≤ ftOf f rate) ∧
  (∀ (s : State) (r : MilliHertz), s.fault.cause = 0#4 → DerivedAgree s → s.flt.rate ≠ 0#32 →
    r.toNat = 2 * s.flt.rate.toNat →
    ∃ t, exec (.fltSetRate r) s = .next t ∧ t.flt.rate = r ∧ t.flt.freq = s.flt.freq ∧
      t.flt.ft.toNat = s.flt.ft.toNat / 2)

/-- R197: with resonance 0, every state (0, b, -b) with |FLT_FT * b| < FLT_NORM is a fixed point of FLT_TICK 0. -/
def Obligations.FilterDeadBand : Prop :=
  ∀ s : State, s.fault.cause = 0#4 → s.flt.qinv = 67108864#64 → s.flt.lp = 0#16 → s.flt.hp = -s.flt.bp →
    ((s.flt.ft.toNat : Int) * s.flt.bp.toInt).natAbs < 67108864 →
    exec (.fltTick 0#16) s = .next { s with
      response := some { status := .ok, result := s.flt.hp ++ s.flt.hp ++ s.flt.bp ++ 0#16 } }

/-- R195: the wrap and saturate policies give the same four outputs, the exact ones, when no step's exact value leaves
the Sample range. -/
def Obligations.OverflowPoliciesAgreeInRange : Prop :=
  ∀ (policy : FltOverflow) (round : DivRound) (ft qinv lp bp x e1 e2 e3 e4 : Int),
    e1 = lp + divn round (ft * bp) 67108864 → e2 = x - e1 - divn round (qinv * bp) 67108864 →
    e3 = bp + divn round (ft * e2) 67108864 → e4 = e2 + e1 →
    (∀ e ∈ [e1, e2, e3, e4], -32768 ≤ e ∧ e ≤ 32767) →
    filterTick policy round ft qinv lp bp x = { lp := e1, bp := e3, hp := e2, notch := e4 }

/-! ### After reset, and the system command -/

/-- R253: before any setup OSC_TICK answers NONE, FLT_TICK passes its input to high-pass and notch, and the LFSR and
noise commands run from their seeds. -/
def Obligations.ResetStateBehaviour : Prop :=
  ∀ (p : Params) (x : Sample),
    exec .oscTick (State.resetWith p) = .next { State.resetWith p with
      response := some { status := .noSample, result := 0#64 } } ∧
    exec (.fltTick x) (State.resetWith p) = .next { State.resetWith p with
      flt := { (State.resetWith p).flt with hp := x }
      response := some { status := .ok, result := x ++ x ++ 0#16 ++ 0#16 } } ∧
    exec .lfsr16Next (State.resetWith p) = .next { State.resetWith p with
      lfsr16 := 0xE270#16
      response := some { status := .ok, result := 0xE270#64 } } ∧
    exec .lfsr32Next (State.resetWith p) = .next { State.resetWith p with
      lfsr32 := 0x80205673#32
      response := some { status := .ok, result := 0x80205673#64 } } ∧
    exec .noiseTick (State.resetWith p) = .next { State.resetWith p with
      lfsr32 := 0x80205673#32
      response := some { status := .ok, result := 0x298C#64 } }

/-- R210: RDREG answers OK with the register, zero-extended, in every state, faulted or not, and changes nothing. -/
def Obligations.RdregReadsEveryRegister : Prop :=
  ∀ (s : State) (r : BitVec 8) (v : BitVec 64),
    (r, v) ∈
      [ (0x00#8, s.fault.cause.setWidth 64), (0x01#8, s.fault.info),
        (0x10#8, (BitVec.ofBool s.osc.looping ++ BitVec.ofBool s.osc.running).setWidth 64),
        (0x11#8, s.osc.phase.setWidth 64), (0x12#8, s.osc.freq.setWidth 64),
        (0x13#8, s.osc.rate.setWidth 64), (0x14#8, s.osc.alpha), (0x15#8, s.osc.delta),
        (0x16#8, s.osc.tbase.setWidth 64), (0x17#8, s.osc.tlen.setWidth 64),
        (0x18#8, s.osc.index.setWidth 64), (0x20#8, s.flt.lp.setWidth 64), (0x21#8, s.flt.bp.setWidth 64),
        (0x22#8, s.flt.hp.setWidth 64), (0x23#8, s.flt.freq.setWidth 64), (0x24#8, s.flt.rate.setWidth 64),
        (0x25#8, s.flt.ft), (0x26#8, s.flt.qinv), (0x27#8, (s.flt.hp + s.flt.lp).setWidth 64),
        (0x30#8, s.lfsr16.setWidth 64), (0x31#8, s.lfsr32.setWidth 64) ] →
    decode (commandWord 0xF0#8 0#16 (0#24 ++ r)) = .legal (.rdreg r) ∧
    exec (.rdreg r) s = .next { s with response := some { status := .ok, result := v } }

/-- R211: an RDREG word whose A[7:0] is not one of the 21 register numbers, or whose A[31:8], B or RSV is not 0, is
answered ILLEGAL, or FAULT when the block is faulted, and changes no state. -/
def Obligations.IllegalRdregWords : Prop :=
  (∀ (w : Command) (s : State), w.extractLsb' 56 8 = 0xF0#8 →
    (legalRegNumber (w.extractLsb' 0 8) = false ∨ w.extractLsb' 8 24 ≠ 0#24 ∨ w.extractLsb' 32 16 ≠ 0#16 ∨
      w.extractLsb' 48 8 ≠ 0#8) →
    runWord w s = .next { s with
      response := some { status := if s.fault.cause = 0#4 then .illegal else .fault, result := 0#64 } }) ∧
  (∀ r : BitVec 8, legalRegNumber r = true ↔
    r ∈ [0x00#8, 0x01#8, 0x10#8, 0x11#8, 0x12#8, 0x13#8, 0x14#8, 0x15#8, 0x16#8, 0x17#8, 0x18#8, 0x20#8, 0x21#8,
      0x22#8, 0x23#8, 0x24#8, 0x25#8, 0x26#8, 0x27#8, 0x30#8, 0x31#8])
end

