-- ==== Sys2Proof/Laws/State.lean ====
section
/-! SUPPORT. One lemma per field per named update of the state, each true by unfolding, so that no later proof
unfolds a record update. -/

namespace Sys2Proof.Machine

open Sys2Proof

/-! ### withOsc -/

section
variable (s : State) (o : OscRegs)

@[simp] theorem withOsc_fault : (s.withOsc o).fault = s.fault := rfl
@[simp] theorem withOsc_osc : (s.withOsc o).osc = o := rfl
@[simp] theorem withOsc_flt : (s.withOsc o).flt = s.flt := rfl
@[simp] theorem withOsc_lfsr16 : (s.withOsc o).lfsr16 = s.lfsr16 := rfl
@[simp] theorem withOsc_lfsr32 : (s.withOsc o).lfsr32 = s.lfsr32 := rfl
@[simp] theorem withOsc_wt : (s.withOsc o).wt = s.wt := rfl
@[simp] theorem withOsc_params : (s.withOsc o).params = s.params := rfl
@[simp] theorem withOsc_host : (s.withOsc o).host = s.host := rfl
@[simp] theorem withOsc_overlap : (s.withOsc o).overlap = s.overlap := rfl
@[simp] theorem withOsc_draws : (s.withOsc o).draws = s.draws := rfl
@[simp] theorem withOsc_response : (s.withOsc o).response = s.response := rfl

end

/-! ### withFlt -/

section
variable (s : State) (f : FltRegs)

@[simp] theorem withFlt_fault : (s.withFlt f).fault = s.fault := rfl
@[simp] theorem withFlt_osc : (s.withFlt f).osc = s.osc := rfl
@[simp] theorem withFlt_flt : (s.withFlt f).flt = f := rfl
@[simp] theorem withFlt_lfsr16 : (s.withFlt f).lfsr16 = s.lfsr16 := rfl
@[simp] theorem withFlt_lfsr32 : (s.withFlt f).lfsr32 = s.lfsr32 := rfl
@[simp] theorem withFlt_wt : (s.withFlt f).wt = s.wt := rfl
@[simp] theorem withFlt_params : (s.withFlt f).params = s.params := rfl
@[simp] theorem withFlt_host : (s.withFlt f).host = s.host := rfl
@[simp] theorem withFlt_overlap : (s.withFlt f).overlap = s.overlap := rfl
@[simp] theorem withFlt_draws : (s.withFlt f).draws = s.draws := rfl
@[simp] theorem withFlt_response : (s.withFlt f).response = s.response := rfl

end

/-! ### withLfsr16 -/

section
variable (s : State) (r : BitVec 16)

@[simp] theorem withLfsr16_fault : (s.withLfsr16 r).fault = s.fault := rfl
@[simp] theorem withLfsr16_osc : (s.withLfsr16 r).osc = s.osc := rfl
@[simp] theorem withLfsr16_flt : (s.withLfsr16 r).flt = s.flt := rfl
@[simp] theorem withLfsr16_lfsr16 : (s.withLfsr16 r).lfsr16 = r := rfl
@[simp] theorem withLfsr16_lfsr32 : (s.withLfsr16 r).lfsr32 = s.lfsr32 := rfl
@[simp] theorem withLfsr16_wt : (s.withLfsr16 r).wt = s.wt := rfl
@[simp] theorem withLfsr16_params : (s.withLfsr16 r).params = s.params := rfl
@[simp] theorem withLfsr16_host : (s.withLfsr16 r).host = s.host := rfl
@[simp] theorem withLfsr16_overlap : (s.withLfsr16 r).overlap = s.overlap := rfl
@[simp] theorem withLfsr16_draws : (s.withLfsr16 r).draws = s.draws := rfl
@[simp] theorem withLfsr16_response : (s.withLfsr16 r).response = s.response := rfl

end

/-! ### withLfsr32 -/

section
variable (s : State) (r : BitVec 32)

@[simp] theorem withLfsr32_fault : (s.withLfsr32 r).fault = s.fault := rfl
@[simp] theorem withLfsr32_osc : (s.withLfsr32 r).osc = s.osc := rfl
@[simp] theorem withLfsr32_flt : (s.withLfsr32 r).flt = s.flt := rfl
@[simp] theorem withLfsr32_lfsr16 : (s.withLfsr32 r).lfsr16 = s.lfsr16 := rfl
@[simp] theorem withLfsr32_lfsr32 : (s.withLfsr32 r).lfsr32 = r := rfl
@[simp] theorem withLfsr32_wt : (s.withLfsr32 r).wt = s.wt := rfl
@[simp] theorem withLfsr32_params : (s.withLfsr32 r).params = s.params := rfl
@[simp] theorem withLfsr32_host : (s.withLfsr32 r).host = s.host := rfl
@[simp] theorem withLfsr32_overlap : (s.withLfsr32 r).overlap = s.overlap := rfl
@[simp] theorem withLfsr32_draws : (s.withLfsr32 r).draws = s.draws := rfl
@[simp] theorem withLfsr32_response : (s.withLfsr32 r).response = s.response := rfl

end

/-! ### withFault -/

section
variable (s : State) (f : FaultRegs)

@[simp] theorem withFault_fault : (s.withFault f).fault = f := rfl
@[simp] theorem withFault_osc : (s.withFault f).osc = s.osc := rfl
@[simp] theorem withFault_flt : (s.withFault f).flt = s.flt := rfl
@[simp] theorem withFault_lfsr16 : (s.withFault f).lfsr16 = s.lfsr16 := rfl
@[simp] theorem withFault_lfsr32 : (s.withFault f).lfsr32 = s.lfsr32 := rfl
@[simp] theorem withFault_wt : (s.withFault f).wt = s.wt := rfl
@[simp] theorem withFault_params : (s.withFault f).params = s.params := rfl
@[simp] theorem withFault_host : (s.withFault f).host = s.host := rfl
@[simp] theorem withFault_overlap : (s.withFault f).overlap = s.overlap := rfl
@[simp] theorem withFault_draws : (s.withFault f).draws = s.draws := rfl
@[simp] theorem withFault_response : (s.withFault f).response = s.response := rfl

end

/-! ### withWt -/

section
variable (s : State) (m : Memory)

@[simp] theorem withWt_fault : (s.withWt m).fault = s.fault := rfl
@[simp] theorem withWt_osc : (s.withWt m).osc = s.osc := rfl
@[simp] theorem withWt_flt : (s.withWt m).flt = s.flt := rfl
@[simp] theorem withWt_lfsr16 : (s.withWt m).lfsr16 = s.lfsr16 := rfl
@[simp] theorem withWt_lfsr32 : (s.withWt m).lfsr32 = s.lfsr32 := rfl
@[simp] theorem withWt_wt : (s.withWt m).wt = m := rfl
@[simp] theorem withWt_params : (s.withWt m).params = s.params := rfl
@[simp] theorem withWt_host : (s.withWt m).host = s.host := rfl
@[simp] theorem withWt_overlap : (s.withWt m).overlap = s.overlap := rfl
@[simp] theorem withWt_draws : (s.withWt m).draws = s.draws := rfl
@[simp] theorem withWt_response : (s.withWt m).response = s.response := rfl

end

/-! ### respond -/

section
variable (st : Status) (r : Result) (s : State)

@[simp] theorem respond_fault : (respond st r s).fault = s.fault := rfl
@[simp] theorem respond_osc : (respond st r s).osc = s.osc := rfl
@[simp] theorem respond_flt : (respond st r s).flt = s.flt := rfl
@[simp] theorem respond_lfsr16 : (respond st r s).lfsr16 = s.lfsr16 := rfl
@[simp] theorem respond_lfsr32 : (respond st r s).lfsr32 = s.lfsr32 := rfl
@[simp] theorem respond_wt : (respond st r s).wt = s.wt := rfl
@[simp] theorem respond_params : (respond st r s).params = s.params := rfl
@[simp] theorem respond_host : (respond st r s).host = s.host := rfl
@[simp] theorem respond_overlap : (respond st r s).overlap = s.overlap := rfl
@[simp] theorem respond_draws : (respond st r s).draws = s.draws := rfl
@[simp] theorem respond_response : (respond st r s).response = some { status := st, result := r } := rfl

end

/-! ### raiseFault -/

section
variable (c : FaultCause) (n : Nat) (s : State)

@[simp] theorem raiseFault_fault : (raiseFault c n s).fault = { cause := c.code, info := regOfNat 64 n } := rfl
@[simp] theorem raiseFault_osc : (raiseFault c n s).osc = s.osc := rfl
@[simp] theorem raiseFault_flt : (raiseFault c n s).flt = s.flt := rfl
@[simp] theorem raiseFault_lfsr16 : (raiseFault c n s).lfsr16 = s.lfsr16 := rfl
@[simp] theorem raiseFault_lfsr32 : (raiseFault c n s).lfsr32 = s.lfsr32 := rfl
@[simp] theorem raiseFault_wt : (raiseFault c n s).wt = s.wt := rfl
@[simp] theorem raiseFault_params : (raiseFault c n s).params = s.params := rfl
@[simp] theorem raiseFault_host : (raiseFault c n s).host = s.host := rfl
@[simp] theorem raiseFault_overlap : (raiseFault c n s).overlap = s.overlap := rfl
@[simp] theorem raiseFault_draws : (raiseFault c n s).draws = s.draws := rfl
@[simp] theorem raiseFault_response : (raiseFault c n s).response = some { status := .fault, result := 0#64 } := rfl

end

/-! ### afterRead -/

section
variable (s : State) (a : Nat)

@[simp] theorem afterRead_fault : (afterRead s a).fault = s.fault := rfl
@[simp] theorem afterRead_osc : (afterRead s a).osc = s.osc := rfl
@[simp] theorem afterRead_flt : (afterRead s a).flt = s.flt := rfl
@[simp] theorem afterRead_lfsr16 : (afterRead s a).lfsr16 = s.lfsr16 := rfl
@[simp] theorem afterRead_lfsr32 : (afterRead s a).lfsr32 = s.lfsr32 := rfl
@[simp] theorem afterRead_wt : (afterRead s a).wt = s.wt := rfl
@[simp] theorem afterRead_params : (afterRead s a).params = s.params := rfl
@[simp] theorem afterRead_host : (afterRead s a).host = s.host := rfl
@[simp] theorem afterRead_overlap : (afterRead s a).overlap = s.overlap := rfl
@[simp] theorem afterRead_draws : (afterRead s a).draws = if readOverlaps s a then s.draws + 1 else s.draws := rfl
@[simp] theorem afterRead_response : (afterRead s a).response = s.response := rfl

end

/-! ### assertReset -/

section
variable (s : State)

@[simp] theorem assertReset_fault : (assertReset s).fault = .atReset := rfl
@[simp] theorem assertReset_osc : (assertReset s).osc = .atReset s.params := rfl
@[simp] theorem assertReset_flt : (assertReset s).flt = .atReset := rfl
@[simp] theorem assertReset_lfsr16 : (assertReset s).lfsr16 = Config.lfsr16Seed := rfl
@[simp] theorem assertReset_lfsr32 : (assertReset s).lfsr32 = Config.lfsr32Seed := rfl
@[simp] theorem assertReset_wt : (assertReset s).wt = s.wt := rfl
@[simp] theorem assertReset_params : (assertReset s).params = s.params := rfl
@[simp] theorem assertReset_host : (assertReset s).host = s.host := rfl
@[simp] theorem assertReset_overlap : (assertReset s).overlap = [] := rfl
@[simp] theorem assertReset_draws : (assertReset s).draws = s.draws := rfl
@[simp] theorem assertReset_response : (assertReset s).response = none := rfl

end

/-! ### resetWith -/

section
variable (p : Params)

@[simp] theorem resetWith_fault : (State.resetWith p).fault = .atReset := rfl
@[simp] theorem resetWith_osc : (State.resetWith p).osc = .atReset p := rfl
@[simp] theorem resetWith_flt : (State.resetWith p).flt = .atReset := rfl
@[simp] theorem resetWith_lfsr16 : (State.resetWith p).lfsr16 = Config.lfsr16Seed := rfl
@[simp] theorem resetWith_lfsr32 : (State.resetWith p).lfsr32 = Config.lfsr32Seed := rfl
@[simp] theorem resetWith_wt : (State.resetWith p).wt = [] := rfl
@[simp] theorem resetWith_params : (State.resetWith p).params = p := rfl
@[simp] theorem resetWith_host : (State.resetWith p).host = [] := rfl
@[simp] theorem resetWith_overlap : (State.resetWith p).overlap = [] := rfl
@[simp] theorem resetWith_draws : (State.resetWith p).draws = 0 := rfl
@[simp] theorem resetWith_response : (State.resetWith p).response = none := rfl

end

/-! ### issueNext -/

section
variable (s : State) (w : Command)

@[simp] theorem issueNext_fault : (issueNext s w).fault = s.fault := rfl
@[simp] theorem issueNext_osc : (issueNext s w).osc = s.osc := rfl
@[simp] theorem issueNext_flt : (issueNext s w).flt = s.flt := rfl
@[simp] theorem issueNext_lfsr16 : (issueNext s w).lfsr16 = s.lfsr16 := rfl
@[simp] theorem issueNext_lfsr32 : (issueNext s w).lfsr32 = s.lfsr32 := rfl
@[simp] theorem issueNext_wt : (issueNext s w).wt = s.wt := rfl
@[simp] theorem issueNext_params : (issueNext s w).params = s.params := rfl
@[simp] theorem issueNext_host : (issueNext s w).host = .command w [] :: s.host := rfl
@[simp] theorem issueNext_overlap : (issueNext s w).overlap = s.overlap := rfl
@[simp] theorem issueNext_draws : (issueNext s w).draws = s.draws := rfl
@[simp] theorem issueNext_response : (issueNext s w).response = s.response := rfl

end

/-! ### withRunning -/

section
variable (o : OscRegs) (r : Bool)

@[simp] theorem withRunning_running : (o.withRunning r).running = r := rfl
@[simp] theorem withRunning_looping : (o.withRunning r).looping = o.looping := rfl
@[simp] theorem withRunning_phase : (o.withRunning r).phase = o.phase := rfl
@[simp] theorem withRunning_freq : (o.withRunning r).freq = o.freq := rfl
@[simp] theorem withRunning_rate : (o.withRunning r).rate = o.rate := rfl
@[simp] theorem withRunning_alpha : (o.withRunning r).alpha = o.alpha := rfl
@[simp] theorem withRunning_delta : (o.withRunning r).delta = o.delta := rfl
@[simp] theorem withRunning_tbase : (o.withRunning r).tbase = o.tbase := rfl
@[simp] theorem withRunning_tlen : (o.withRunning r).tlen = o.tlen := rfl
@[simp] theorem withRunning_index : (o.withRunning r).index = o.index := rfl

end

/-! ### withLooping -/

section
variable (o : OscRegs) (f : Bool)

@[simp] theorem withLooping_running : (o.withLooping f).running = o.running := rfl
@[simp] theorem withLooping_looping : (o.withLooping f).looping = f := rfl
@[simp] theorem withLooping_phase : (o.withLooping f).phase = o.phase := rfl
@[simp] theorem withLooping_freq : (o.withLooping f).freq = o.freq := rfl
@[simp] theorem withLooping_rate : (o.withLooping f).rate = o.rate := rfl
@[simp] theorem withLooping_alpha : (o.withLooping f).alpha = o.alpha := rfl
@[simp] theorem withLooping_delta : (o.withLooping f).delta = o.delta := rfl
@[simp] theorem withLooping_tbase : (o.withLooping f).tbase = o.tbase := rfl
@[simp] theorem withLooping_tlen : (o.withLooping f).tlen = o.tlen := rfl
@[simp] theorem withLooping_index : (o.withLooping f).index = o.index := rfl

end

/-! ### withFreq -/

section
variable (o : OscRegs) (f : MilliHertz)

@[simp] theorem withFreq_running : (o.withFreq f).running = o.running := rfl
@[simp] theorem withFreq_looping : (o.withFreq f).looping = o.looping := rfl
@[simp] theorem withFreq_phase : (o.withFreq f).phase = o.phase := rfl
@[simp] theorem withFreq_freq : (o.withFreq f).freq = f := rfl
@[simp] theorem withFreq_rate : (o.withFreq f).rate = o.rate := rfl
@[simp] theorem withFreq_alpha : (o.withFreq f).alpha = o.alpha := rfl
@[simp] theorem withFreq_delta : (o.withFreq f).delta = regOfNat 64 (scale f.toNat o.rate.toNat o.alpha.toNat) := rfl
@[simp] theorem withFreq_tbase : (o.withFreq f).tbase = o.tbase := rfl
@[simp] theorem withFreq_tlen : (o.withFreq f).tlen = o.tlen := rfl
@[simp] theorem withFreq_index : (o.withFreq f).index = o.index := rfl

end

/-! ### withRate -/

section
variable (o : OscRegs) (r : MilliHertz)

@[simp] theorem withRate_running : (o.withRate r).running = o.running := rfl
@[simp] theorem withRate_looping : (o.withRate r).looping = o.looping := rfl
@[simp] theorem withRate_phase : (o.withRate r).phase = o.phase := rfl
@[simp] theorem withRate_freq : (o.withRate r).freq = o.freq := rfl
@[simp] theorem withRate_rate : (o.withRate r).rate = r := rfl
@[simp] theorem withRate_alpha : (o.withRate r).alpha = regOfNat 64 (alphaOf r.toNat) := rfl
@[simp] theorem withRate_delta : (o.withRate r).delta = regOfNat 64 (scale o.freq.toNat r.toNat (alphaOf r.toNat)) := rfl
@[simp] theorem withRate_tbase : (o.withRate r).tbase = o.tbase := rfl
@[simp] theorem withRate_tlen : (o.withRate r).tlen = o.tlen := rfl
@[simp] theorem withRate_index : (o.withRate r).index = o.index := rfl

end

/-! ### withOut -/

section
variable (f : FltRegs) (o : FilterOut)

@[simp] theorem withOut_lp : (f.withOut o).lp = toSample o.lp := rfl
@[simp] theorem withOut_bp : (f.withOut o).bp = toSample o.bp := rfl
@[simp] theorem withOut_hp : (f.withOut o).hp = toSample o.hp := rfl
@[simp] theorem withOut_freq : (f.withOut o).freq = f.freq := rfl
@[simp] theorem withOut_rate : (f.withOut o).rate = f.rate := rfl
@[simp] theorem withOut_ft : (f.withOut o).ft = f.ft := rfl
@[simp] theorem withOut_qinv : (f.withOut o).qinv = f.qinv := rfl

end

end Sys2Proof.Machine
end

