-- ==== Sys2Proof/Laws/Arith.lean ====
section
/-! SUPPORT. The arithmetic primitives. -/

namespace Sys2Proof.Machine

open Sys2Proof

theorem sext16_bounds (v : Sample) : -32768 ≤ sext16 v ∧ sext16 v ≤ 32767 := by
  have h1 := BitVec.le_toInt v
  have h2 := BitVec.toInt_lt (x := v)
  simp only [sext16] at *
  omega

/-- Saturation stays in the Sample range. -/
theorem clamp16_bounds (v : Int) : -32768 ≤ clamp16 v ∧ clamp16 v ≤ 32767 := by
  simp only [clamp16, Config.sampleMin, Config.sampleMax]; omega

/-- Saturation leaves a value of the Sample range alone. -/
theorem clamp16_of_mem {v : Int} (h1 : -32768 ≤ v) (h2 : v ≤ 32767) : clamp16 v = v := by
  simp only [clamp16, Config.sampleMin, Config.sampleMax]; omega

/-- A value of the Sample range survives its 16-bit pattern. -/
theorem sext16_toSample_of_mem {v : Int} (h1 : -32768 ≤ v) (h2 : v ≤ 32767) : sext16 (toSample v) = v := by
  simp only [sext16, toSample, BitVec.toInt_ofInt]
  rw [Int.bmod_eq_of_le] <;> omega

@[simp] theorem toSample_sext16 (v : Sample) : toSample (sext16 v) = v := by
  simp [toSample, sext16]

/-- Truncation leaves a value of the Sample range alone. -/
theorem wrap16_of_mem {v : Int} (h1 : -32768 ≤ v) (h2 : v ≤ 32767) : wrap16 v = v :=
  sext16_toSample_of_mem h1 h2

theorem wrap16_bounds (v : Int) : -32768 ≤ wrap16 v ∧ wrap16 v ≤ 32767 := sext16_bounds _

@[simp] theorem toSample_wrap16 (v : Int) : toSample (wrap16 v) = toSample v := toSample_sext16 _

/-- Both overflow policies agree on a value of the Sample range (R195). -/
theorem cut_of_mem (policy : FltOverflow) {v : Int} (h1 : -32768 ≤ v) (h2 : v ≤ 32767) :
    cut policy v = v := by
  cases policy
  · exact wrap16_of_mem h1 h2
  · exact clamp16_of_mem h1 h2

theorem cut_bounds (policy : FltOverflow) (v : Int) : -32768 ≤ cut policy v ∧ cut policy v ≤ 32767 := by
  cases policy
  · exact wrap16_bounds v
  · exact clamp16_bounds v

/-- Division toward zero is the library's truncating division. -/
theorem divn_towardZero (a : Int) (n : Nat) : divn .towardZero a n = a.tdiv n := by
  rcases Int.le_total 0 a with h | h
  · obtain ⟨k, rfl⟩ := Int.eq_ofNat_of_zero_le h
    rcases Nat.eq_zero_or_pos k with rfl | hk
    · simp [divn]
    · simp [divn, Int.sign_eq_one_of_pos (by exact_mod_cast hk : (0 : Int) < k)]
  · obtain ⟨k, hk⟩ := Int.eq_ofNat_of_zero_le (Int.neg_nonneg_of_nonpos h)
    obtain rfl : a = -(k : Int) := by omega
    rcases Nat.eq_zero_or_pos k with rfl | hk
    · simp [divn]
    · simp [divn, Int.sign_neg, Int.sign_eq_one_of_pos (by exact_mod_cast hk : (0 : Int) < k), Int.neg_tdiv]

/-- The two roundings agree for `a >= 0` (R11). -/
theorem divn_nonneg (round : DivRound) {a : Int} (n : Nat) (h : 0 ≤ a) : divn round a n = a / n := by
  cases round
  · rw [divn_towardZero, Int.tdiv_eq_ediv_of_nonneg h]
  · simp [divn, Int.fdiv_eq_ediv_of_nonneg _ (Int.natCast_nonneg n)]

theorem divn_zero (round : DivRound) (n : Nat) : divn round 0 n = 0 := by
  cases round <;> simp [divn]

/-- A magnitude below the divisor divides to 0 toward zero (R197). -/
theorem divn_towardZero_small {a : Int} {n : Nat} (h : a.natAbs < n) : divn .towardZero a n = 0 := by
  simp [divn, Nat.div_eq_of_lt h]

end Sys2Proof.Machine
end

