-- ==== Sys2Proof/Laws/Decode.lean ====
section
/-! SUPPORT. The opcode map and the register numbers read both ways, and the fields of a word that
`commandWord` builds. -/

namespace Sys2Proof

@[simp] theorem ofOp_op (m : Mnemonic) : Mnemonic.ofOp m.op = some m := by cases m <;> decide

/-- An opcode selects the mnemonic that has it. -/
theorem op_of_ofOp {b : BitVec 8} {m : Mnemonic} (h : Mnemonic.ofOp b = some m) : m.op = b := by
  simpa using List.find?_some h

@[simp] theorem ofNumber_number (r : Reg) : Reg.ofNumber r.number = some r := by cases r <;> decide

/-- A number names the register that has it. -/
theorem number_of_ofNumber {b : BitVec 8} {r : Reg} (h : Reg.ofNumber b = some r) : r.number = b := by
  simpa using List.find?_some h

/-- The numbers that name a register are the 21 of R211. -/
theorem ofNumber_isSome (r : BitVec 8) : (Reg.ofNumber r).isSome = legalRegNumber r := by
  revert r; decide

/-! ### Fields of a built word -/

section
variable (op : BitVec 8) (b : BitVec 16) (a : BitVec 32)

/-- The bits of a built word, field by field (R80). -/
theorem getLsbD_commandWord (i : Nat) :
    (commandWord op b a).getLsbD i =
      if i < 32 then a.getLsbD i
      else if i - 32 < 16 then b.getLsbD (i - 32)
      else if i - 32 - 16 < 8 then false
      else op.getLsbD (i - 32 - 16 - 8) := by
  have h : (commandWord op b a).getLsbD i = (op ++ 0#8 ++ b ++ a : BitVec (8 + 8 + 16 + 32)).getLsbD i := rfl
  rw [h]
  simp only [BitVec.getLsbD_append, BitVec.getLsbD_zero]

@[simp] theorem opField_commandWord : opField (commandWord op b a) = op := by
  apply BitVec.eq_of_getLsbD_eq; intro i hi
  simp [opField, getLsbD_commandWord, hi, show ¬ 56 + i < 32 by omega,
    show ¬ 56 + i - 32 < 16 by omega, show ¬ 56 + i - 32 - 16 < 8 by omega,
    show 56 + i - 32 - 16 - 8 = i by omega]

@[simp] theorem rsvField_commandWord : rsvField (commandWord op b a) = 0#8 := by
  apply BitVec.eq_of_getLsbD_eq; intro i hi
  simp [rsvField, getLsbD_commandWord, show ¬ 48 + i < 32 by omega,
    show ¬ 48 + i - 32 < 16 by omega, show 48 + i - 32 - 16 < 8 by omega]

@[simp] theorem bField_commandWord : bField (commandWord op b a) = b := by
  apply BitVec.eq_of_getLsbD_eq; intro i hi
  simp [bField, getLsbD_commandWord, hi]

@[simp] theorem aField_commandWord : aField (commandWord op b a) = a := by
  apply BitVec.eq_of_getLsbD_eq; intro i hi
  simp [aField, getLsbD_commandWord, hi]

/-- Operand `a` of form `ss` in a built word (R82). -/
@[simp] theorem sampleHi_commandWord (x y : BitVec 16) : sampleHi (commandWord op b (x ++ y)) = x := by
  apply BitVec.eq_of_getLsbD_eq; intro j hj
  rw [sampleHi, BitVec.getLsbD_extractLsb', getLsbD_commandWord, if_pos (by omega), BitVec.getLsbD_append]
  simp [hj]

/-- Operand `b` of form `ss`, and the operand of form `s`, in a built word (R82). -/
@[simp] theorem sampleLo_commandWord (x y : BitVec 16) : sampleLo (commandWord op b (x ++ y)) = y := by
  apply BitVec.eq_of_getLsbD_eq; intro j hj
  rw [sampleLo, BitVec.getLsbD_extractLsb', getLsbD_commandWord, if_pos (by omega), BitVec.getLsbD_append]
  simp [hj]

/-- The operand of form `reg` in a built word (R82). -/
@[simp] theorem regOperand_commandWord (x : BitVec 24) (y : BitVec 8) :
    regOperand (commandWord op b (x ++ y)) = y := by
  apply BitVec.eq_of_getLsbD_eq; intro j hj
  rw [regOperand, BitVec.getLsbD_extractLsb', getLsbD_commandWord, if_pos (by omega), BitVec.getLsbD_append]
  simp [hj]

/-- The operand of form `bit` in a built word (R82). -/
@[simp] theorem flagOperand_commandWord (x : BitVec 31) (f : Bool) :
    flagOperand (commandWord op b (x ++ BitVec.ofBool f)) = f := by
  rw [flagOperand, getLsbD_commandWord, if_pos (by omega), BitVec.getLsbD_append]
  simp

end

/-- A word with RSV 0 is built from its fields. -/
theorem commandWord_fields {w : Command} (h : rsvField w = 0#8) :
    commandWord (opField w) (bField w) (aField w) = w := by
  have hbit : ∀ i, i < 8 → w.getLsbD (48 + i) = false := by
    intro i hi
    have hr : (rsvField w).getLsbD i = false := by rw [h]; simp
    simpa [rsvField, hi] using hr
  apply BitVec.eq_of_getLsbD_eq; intro i hi
  simp only [getLsbD_commandWord, opField, bField, aField, BitVec.getLsbD_extractLsb']
  split_ifs with h1 h2 h3
  · simp [h1]
  · simp [h2, show 32 + (i - 32) = i by omega]
  · rw [← hbit (i - 32 - 16) h3, show 48 + (i - 32 - 16) = i by omega]
  · simp [show 56 + (i - 32 - 16 - 8) = i by omega, show i - 32 - 16 - 8 < 8 by omega]

end Sys2Proof
end

