-- ==== Sys2Proof/Laws/Lfsr.lean ====
section
/-! SUPPORT. The LFSR step is linear over XOR. -/

namespace Sys2Proof.Machine

open Sys2Proof

/-- `lfsr_step(0, m) = 0` (spec/42_lfsr_noise.md R130). -/
@[simp] theorem lfsrStep_zero {n : Nat} (m : BitVec n) : lfsrStep 0#n m = 0#n := by simp [lfsrStep]

/-- The step of an XOR is the XOR of the steps. -/
theorem lfsrStep_xor {n : Nat} (x y m : BitVec n) : lfsrStep (x ^^^ y) m = lfsrStep x m ^^^ lfsrStep y m := by
  simp only [lfsrStep, BitVec.getLsbD_xor, BitVec.ushiftRight_xor_distrib]
  apply BitVec.eq_of_getLsbD_eq; intro i _
  cases x.getLsbD 0 <;> cases y.getLsbD 0 <;>
    simp only [BitVec.getLsbD_xor, Bool.xor_false, Bool.xor_true, Bool.not_true, Bool.not_false, if_true,
      Bool.false_eq_true, if_false, BitVec.getLsbD_zero] <;>
    cases (x >>> 1).getLsbD i <;> cases (y >>> 1).getLsbD i <;> cases m.getLsbD i <;> rfl

theorem nextLfsr16_xor (x y : BitVec 16) : nextLfsr16 (x ^^^ y) = nextLfsr16 x ^^^ nextLfsr16 y :=
  lfsrStep_xor x y _

theorem nextLfsr32_xor (x y : BitVec 32) : nextLfsr32 (x ^^^ y) = nextLfsr32 x ^^^ nextLfsr32 y :=
  lfsrStep_xor x y _

end Sys2Proof.Machine
end

