-- ==== Sys2Proof/Laws/Memory.lean ====
section
/-! SUPPORT. The wavetable memory: reads after writes, and the canonical form is kept. -/

namespace Sys2Proof.Machine

open Sys2Proof

/-! ### Bytes -/

theorem get_set_same (m : Memory) (a : Nat) (v : Byte) : (m.set a v).get a = some v := by
  induction m with
  | nil => simp [Memory.set, Memory.get]
  | cons c rest ih =>
    obtain ⟨k, b⟩ := c
    by_cases h1 : a < k
    · simp [Memory.set, h1, Memory.get]
    · by_cases h2 : a = k
      · simp [Memory.set, h2, Memory.get]
      · simp [Memory.set, h1, h2, Memory.get, ih, Ne.symm h2]

theorem get_set_other (m : Memory) {a b : Nat} (v : Byte) (h : b ≠ a) : (m.set a v).get b = m.get b := by
  induction m with
  | nil => simp [Memory.set, Memory.get, Ne.symm h]
  | cons c rest ih =>
    obtain ⟨k, w⟩ := c
    by_cases h1 : a < k
    · simp [Memory.set, h1, Memory.get, Ne.symm h]
    · by_cases h2 : a = k
      · subst h2; simp [Memory.set, Memory.get, Ne.symm h]
      · simp only [Memory.set, h1, h2, if_false, Memory.get, ih]

/-- A written memory lists the written cell and cells it listed before. -/
theorem mem_set {m : Memory} {a : Nat} {v : Byte} {c : Host.Cell} (h : c ∈ m.set a v) :
    c = (a, v) ∨ c ∈ m := by
  induction m with
  | nil => simpa [Memory.set] using h
  | cons d rest ih =>
    obtain ⟨k, b⟩ := d
    simp only [Memory.set] at h
    split at h
    · simpa using h
    · split at h
      · simp only [List.mem_cons] at h ⊢; tauto
      · simp only [List.mem_cons] at h ⊢
        rcases h with h | h
        · exact .inr (.inl h)
        · exact (ih h).imp id .inr

theorem set_wf {m : Memory} (a : Nat) (v : Byte) (h : Memory.wf m) : Memory.wf (m.set a v) := by
  induction m with
  | nil => simp [Memory.set]
  | cons d rest ih =>
    obtain ⟨k, b⟩ := d
    obtain ⟨hk, hr⟩ := List.pairwise_cons.mp h
    simp only [Memory.set]
    split
    case isTrue ha =>
      refine List.pairwise_cons.mpr ⟨fun c hc => ?_, h⟩
      rcases List.mem_cons.mp hc with rfl | hc
      · exact ha
      · exact Nat.lt_trans ha (hk c hc)
    case isFalse ha =>
      split
      case isTrue hak => subst hak; exact List.pairwise_cons.mpr ⟨hk, hr⟩
      case isFalse hak =>
        refine List.pairwise_cons.mpr ⟨fun c hc => ?_, ih hr⟩
        rcases mem_set hc with rfl | hc
        · exact Nat.lt_of_le_of_ne (Nat.le_of_not_lt ha) (Ne.symm hak)
        · exact hk c hc

@[simp] theorem byte_set_same (m : Memory) (a : Nat) (v : Byte) : (m.set a v).byte a = v := by
  simp [Memory.byte, get_set_same]

theorem byte_set_other (m : Memory) {a b : Nat} (v : Byte) (h : b ≠ a) : (m.set a v).byte b = m.byte b := by
  simp [Memory.byte, get_set_other m v h]

/-! ### Entries -/

/-- An entry put together from its two bytes is the entry. -/
theorem append_bytes (v : Sample) : v.extractLsb' 8 8 ++ v.extractLsb' 0 8 = v := by
  ext i hi
  simp only [BitVec.getElem_append, BitVec.getElem_extractLsb']
  split
  · simp [BitVec.getLsbD_eq_getElem (by omega : i < 16)]
  · simp [BitVec.getLsbD_eq_getElem (by omega : i < 16), show 8 + (i - 8) = i by omega]

/-- A read of an entry after a write of it gives the value written (R61, R67). -/
theorem entry_setEntry_same (m : Memory) (a : Nat) (v : Sample) : (m.setEntry a v).entry a = v := by
  have h : lowByteOffset Config.wtByteOrder a ≠ highByteOffset Config.wtByteOrder a := by
    simp [lowByteOffset, highByteOffset, Config.wtByteOrder]
  simp [Memory.entry, Memory.setEntry, byte_set_other _ _ h, append_bytes]

/-- A byte outside the written entry reads as before. -/
theorem byte_setEntry_other (m : Memory) {a b : Nat} (v : Sample) (h0 : b ≠ 2 * a) (h1 : b ≠ 2 * a + 1) :
    (m.setEntry a v).byte b = m.byte b := by
  have hl : b ≠ lowByteOffset Config.wtByteOrder a := h0
  have hh : b ≠ highByteOffset Config.wtByteOrder a := h1
  simp [Memory.setEntry, byte_set_other _ _ hh, byte_set_other _ _ hl]

/-- Every other entry reads as before. -/
theorem entry_setEntry_other (m : Memory) {a b : Nat} (v : Sample) (h : b ≠ a) :
    (m.setEntry a v).entry b = m.entry b := by
  have hb : ∀ x, x = 2 * b ∨ x = 2 * b + 1 → (m.setEntry a v).byte x = m.byte x :=
    fun x hx => byte_setEntry_other m v (by omega) (by omega)
  simp [Memory.entry, lowByteOffset, highByteOffset, Config.wtByteOrder, hb]

theorem setEntry_wf {m : Memory} (a : Nat) (v : Sample) (h : Memory.wf m) : Memory.wf (m.setEntry a v) :=
  set_wf _ _ (set_wf _ _ h)

/-- The memory of the reset state is in canonical form. -/
theorem reset_wf (p : Params) : Memory.wf (State.resetWith p).wt := List.Pairwise.nil

/-- A write of an entry lists only its own two bytes beside what was listed. -/
theorem mem_setEntry {m : Memory} {a : Nat} {v : Sample} {c : Host.Cell} (h : c ∈ m.setEntry a v) :
    c.1 = 2 * a ∨ c.1 = 2 * a + 1 ∨ c ∈ m := by
  rcases mem_set h with rfl | h
  · exact .inr (.inl rfl)
  · rcases mem_set h with rfl | h
    · exact .inl rfl
    · exact .inr (.inr h)

end Sys2Proof.Machine
end

