-- ==== Sys2Proof/Laws/Ops.lean ====
section
/-! SUPPORT. What each shared operation can do, said once. -/

namespace Sys2Proof.Machine

open Sys2Proof

/-! ### Faulted and live -/

theorem isFaulted_iff (s : State) : isFaulted s = true ↔ s.fault.cause ≠ 0#4 := by simp [isFaulted]

theorem isFaulted_eq_false_iff (s : State) : isFaulted s = false ↔ s.fault.cause = 0#4 := by
  simp [isFaulted]

/-- A live block runs the command. -/
theorem whenLive_live {s : State} (t : State) (h : s.fault.cause = 0#4) : whenLive s t = .next t := by
  simp [whenLive, (isFaulted_eq_false_iff s).mpr h]

/-- A faulted block answers FAULT. -/
theorem whenLive_faulted {s : State} (t : State) (h : s.fault.cause ≠ 0#4) :
    whenLive s t = .next (answerFaulted s) := by
  simp [whenLive, (isFaulted_iff s).mpr h]

/-- Everything `whenLive` can do. -/
theorem whenLive_cases {s t u : State} (h : whenLive s t = .next u) :
    (s.fault.cause = 0#4 ∧ u = t) ∨ (s.fault.cause ≠ 0#4 ∧ u = answerFaulted s) := by
  by_cases hc : s.fault.cause = 0#4
  · rw [whenLive_live t hc] at h; cases h; exact .inl ⟨hc, rfl⟩
  · rw [whenLive_faulted t hc] at h; cases h; exact .inr ⟨hc, rfl⟩

/-- A cause a command raises is a fault. -/
theorem code_ne_zero (c : FaultCause) : c.code ≠ 0#4 := by cases c <;> decide

/-- A block that has just raised a fault is faulted (R222). -/
theorem raiseFault_isFaulted (c : FaultCause) (n : Nat) (s : State) : isFaulted (raiseFault c n s) = true := by
  simp [isFaulted, code_ne_zero]

/-- After reset no block is faulted (R251). -/
theorem assertReset_live (s : State) : isFaulted (assertReset s) = false := rfl

/-! ### Host writes -/

@[simp] theorem landWrites_nil (s : State) : landWrites [] s = .next s := rfl

/-- Everything completing host writes can do when it does not stop: WT changes and nothing else, its canonical
form is kept, and it still holds only entries that exist. -/
theorem landWrites_next {ws : List WtWrite} {s t : State} (h : landWrites ws s = .next t) :
    ∃ m, t = s.withWt m ∧ (Memory.wf s.wt → Memory.wf m) ∧
      ((∀ c ∈ s.wt, c.1 < 2 * s.params.wtSize) → ∀ c ∈ m, c.1 < 2 * s.params.wtSize) := by
  induction ws generalizing s with
  | nil => cases h; exact ⟨_, rfl, id, id⟩
  | cons w rest ih =>
    simp only [landWrites] at h
    split at h
    case isFalse => cases h
    case isTrue he =>
      obtain ⟨m, rfl, hwf, hin⟩ := ih h
      refine ⟨m, rfl, fun h0 => hwf (setEntry_wf _ _ h0), fun h0 => hin fun c hc => ?_⟩
      have hlt : w.addr.toNat < s.params.wtSize := by simpa [entryExists] using he
      rcases mem_setEntry hc with hc | hc | hc
      · simp only [withWt_params]; omega
      · simp only [withWt_params]; omega
      · exact h0 c hc

/-! ### The tick -/

/-- An index from a phase below PHI_MAX lies in a table that is not empty (R153). -/
theorem tableIndex_lt (o : OscRegs) {p : Nat} (ht : 0 < o.tlen.toNat) (hp : p < Config.phiMax) :
    tableIndex o p < o.tlen.toNat := by
  simp only [tableIndex, Config.phiMax] at *
  rw [Nat.div_lt_iff_lt_mul (by omega)]
  exact Nat.mul_lt_mul_of_pos_left hp ht

/-- An index inside the table comes from a phase below PHI_MAX (R153). -/
theorem phase_lt_of_tableIndex_lt {o : OscRegs} {p : Nat} (h : tableIndex o p < o.tlen.toNat) :
    p < Config.phiMax := by
  by_contra hp
  have hp : Config.phiMax ≤ p := Nat.le_of_not_lt hp
  have : o.tlen.toNat ≤ tableIndex o p := by
    simp only [tableIndex]
    rw [Nat.le_div_iff_mul_le (by decide)]
    exact Nat.mul_le_mul_left _ hp
  omega

/-- The state a lookup that returns a sample leaves. -/
def lookupDone (p : Nat) (s : State) : State :=
  respond .ok (zext64 (memRead s (tableAddr s.osc p)))
    ((afterRead s (tableAddr s.osc p)).withOsc
      { s.osc with phase := regOfNat 32 p, index := regOfNat 16 (tableIndex s.osc p) })

/-- Everything a lookup can do, guards included (R152, R153). -/
theorem lookup_cases (p : Nat) (s : State) :
    (s.osc.tlen.toNat ≤ tableIndex s.osc p ∧ lookup p s = raiseFault .indexRange (tableIndex s.osc p) s) ∨
    (tableIndex s.osc p < s.osc.tlen.toNat ∧ s.params.wtSize ≤ tableAddr s.osc p ∧
      lookup p s = raiseFault .wtAddr (tableAddr s.osc p) s) ∨
    (tableIndex s.osc p < s.osc.tlen.toNat ∧ tableAddr s.osc p < s.params.wtSize ∧
      lookup p s = lookupDone p s) := by
  by_cases h1 : s.osc.tlen.toNat ≤ tableIndex s.osc p
  · exact .inl ⟨h1, by simp [lookup, h1]⟩
  · by_cases h2 : tableAddr s.osc p < s.params.wtSize
    · exact .inr (.inr ⟨by omega, h2, by simp [lookup, h1, h2, entryExists, lookupDone]⟩)
    · exact .inr (.inl ⟨by omega, by omega, by simp [lookup, h1, h2, entryExists]⟩)

/-- Everything a tick can do, guards included (R152). -/
theorem oscTick_cases (s : State) :
    (s.osc.running = false ∧ oscTick s = respond .noSample 0#64 s) ∨
    (s.osc.running = true ∧ advancedPhase s.osc < Config.phiMax ∧
      oscTick s = lookup (advancedPhase s.osc) s) ∨
    (s.osc.running = true ∧ Config.phiMax ≤ advancedPhase s.osc ∧ s.osc.looping = true ∧
      oscTick s = lookup (advancedPhase s.osc - Config.phiMax) s) ∨
    (s.osc.running = true ∧ Config.phiMax ≤ advancedPhase s.osc ∧ s.osc.looping = false ∧
      oscTick s = oneShotEnd s) := by
  cases hr : s.osc.running
  · exact .inl ⟨rfl, by simp [oscTick, hr]⟩
  · by_cases hp : Config.phiMax ≤ advancedPhase s.osc
    · cases hl : s.osc.looping
      · exact .inr (.inr (.inr ⟨rfl, hp, rfl, by simp [oscTick, hr, hp, hl]⟩))
      · exact .inr (.inr (.inl ⟨rfl, hp, rfl, by simp [oscTick, hr, hp, hl]⟩))
    · exact .inr (.inl ⟨rfl, by omega, by simp [oscTick, hr, hp]⟩)

/-! ### The derived coefficients -/

/-- A natural number that fits a register is what the register then holds. -/
theorem regOfNat_toNat {n v : Nat} (h : v < 2 ^ n) : (regOfNat n v).toNat = v := by
  simp [regOfNat, Nat.mod_eq_of_lt h]

/-- `alpha_of` of any rate is at most 2^46 (R31). -/
theorem alphaOf_le (r : Nat) : alphaOf r ≤ 70368744177664 := Nat.div_le_self _ _

/-- The increment of a 32-bit frequency and a constant at most 2^46 fits its register (R32). -/
theorem scale_lt {f rate alpha : Nat} (hf : f < 4294967296) (ha : alpha ≤ 70368744177664) :
    scale f rate alpha < 2 ^ 64 := by
  simp only [scale, Config.oscScaler, scaleBy, Config.oscNorm]
  have := Nat.mul_le_mul (Nat.le_of_lt hf) ha
  have := Nat.div_le_div_right (c := 67108864) this
  omega

/-- `ft` of 32-bit operands fits its register (R41). -/
theorem ftOf_lt {f rate : Nat} (hf : f < 4294967296) : ftOf f rate < 2 ^ 64 := by
  simp only [ftOf, Config.fltNorm]
  have := Nat.div_le_self (67108864 * f) rate
  omega

theorem qinvOf_le (r : Nat) : qinvOf r ≤ Config.fltNorm := Nat.sub_le _ _

end Sys2Proof.Machine
end

