-- ==== Sys2Proof/Laws/PerInstr.lean ====
section
/-! SUPPORT. Families of lemmas made per instruction. -/

namespace Sys2Proof.Laws

open Sys2Proof

/-! ### Masks of operand bits -/

/-- Masking a built word with a mask of operand bits masks its `B` and `A` fields. -/
theorem commandWord_and (op : BitVec 8) (b mb : BitVec 16) (a ma : BitVec 32) :
    commandWord op b a &&& commandWord 0#8 mb ma = commandWord 0#8 (b &&& mb) (a &&& ma) := by
  apply BitVec.eq_of_getLsbD_eq; intro i _
  simp only [BitVec.getLsbD_and, getLsbD_commandWord, BitVec.getLsbD_zero]
  split_ifs <;> simp

/-- A field that is zero above its low 16 bits has no bit under the mask of the high 16. -/
theorem lowHalf_and (x : BitVec 16) : (0#16 ++ x : BitVec 32) &&& 0xFFFF0000#32 = 0#32 := by
  rw [show (0xFFFF0000#32 : BitVec 32) = 0xFFFF#16 ++ 0#16 by decide]
  apply BitVec.eq_of_getLsbD_eq; intro i hi
  simp only [BitVec.getLsbD_and, BitVec.getLsbD_append, BitVec.getLsbD_zero]
  split_ifs <;> simp

/-- The same for a register number under the mask of the high 24 bits. -/
theorem lowByte_and (r : BitVec 8) : (0#24 ++ r : BitVec 32) &&& 0xFFFFFF00#32 = 0#32 := by
  rw [show (0xFFFFFF00#32 : BitVec 32) = 0xFFFFFF#24 ++ 0#8 by decide]
  apply BitVec.eq_of_getLsbD_eq; intro i hi
  simp only [BitVec.getLsbD_and, BitVec.getLsbD_append, BitVec.getLsbD_zero]
  split_ifs <;> simp

/-! ### No encoding sets an operand bit that its form does not use (spec/30_encoding.md R82) -/

namespace UnusedBitsZero

/-- The word of `i` has every unused operand bit 0. -/
def Statement (i : Instr) : Prop := encode i &&& i.mnemonic.form.unusedMask = 0#64

/-- The statement from the two operand fields. -/
theorem of_fields {i : Instr} (f : Form) (mb : BitVec 16) (ma : BitVec 32) (hf : i.mnemonic.form = f)
    (hm : f.unusedMask = commandWord 0#8 mb ma) (hb : i.bBits &&& mb = 0#16)
    (ha : i.aBits &&& ma = 0#32) : Statement i := by
  rw [Statement, encode, hf, hm, commandWord_and, hb, ha]; decide

theorem sadd (a b : Sample) : Statement (.sadd a b) :=
  of_fields .ss 0xFFFF#16 0#32 rfl (by decide) (by simp [Instr.bBits]) (by simp)

theorem smul (a b : Sample) : Statement (.smul a b) :=
  of_fields .ss 0xFFFF#16 0#32 rfl (by decide) (by simp [Instr.bBits]) (by simp)

theorem snmul (a b : Sample) : Statement (.snmul a b) :=
  of_fields .ss 0xFFFF#16 0#32 rfl (by decide) (by simp [Instr.bBits]) (by simp)

theorem sclip (a : Sample) : Statement (.sclip a) :=
  of_fields .s 0xFFFF#16 0xFFFF0000#32 rfl (by decide) (by simp [Instr.bBits]) (lowHalf_and a)

theorem lfsr16Next : Statement .lfsr16Next := by unfold Statement; decide

theorem lfsr32Next : Statement .lfsr32Next := by unfold Statement; decide

theorem noiseTick : Statement .noiseTick := by unfold Statement; decide

theorem oscTick : Statement .oscTick := by unfold Statement; decide

theorem oscStart : Statement .oscStart := by unfold Statement; decide

theorem oscStop : Statement .oscStop := by unfold Statement; decide

theorem oscReset : Statement .oscReset := by unfold Statement; decide

theorem oscResetStart : Statement .oscResetStart := by unfold Statement; decide

theorem oscStopReset : Statement .oscStopReset := by unfold Statement; decide

theorem oscSetFreq (f : MilliHertz) : Statement (.oscSetFreq f) :=
  of_fields .u32 0xFFFF#16 0#32 rfl (by decide) (by simp [Instr.bBits]) (by simp)

theorem oscSetRate (r : MilliHertz) : Statement (.oscSetRate r) :=
  of_fields .u32 0xFFFF#16 0#32 rfl (by decide) (by simp [Instr.bBits]) (by simp)

theorem oscGetRate : Statement .oscGetRate := by unfold Statement; decide

theorem oscSetTable (base : EntryAddr) (len : BitVec 16) : Statement (.oscSetTable base len) :=
  of_fields .tbl 0#16 0#32 rfl (by decide) (by simp) (by simp)

theorem oscSetRepeat (f : Bool) : Statement (.oscSetRepeat f) := by
  cases f <;> unfold Statement <;> decide

theorem fltTick (x : Sample) : Statement (.fltTick x) :=
  of_fields .s 0xFFFF#16 0xFFFF0000#32 rfl (by decide) (by simp [Instr.bBits]) (lowHalf_and x)

theorem fltSetFreq (f : MilliHertz) : Statement (.fltSetFreq f) :=
  of_fields .u32 0xFFFF#16 0#32 rfl (by decide) (by simp [Instr.bBits]) (by simp)

theorem fltSetRes (r : BitVec 32) : Statement (.fltSetRes r) :=
  of_fields .u32 0xFFFF#16 0#32 rfl (by decide) (by simp [Instr.bBits]) (by simp)

theorem fltSetRate (r : MilliHertz) : Statement (.fltSetRate r) :=
  of_fields .u32 0xFFFF#16 0#32 rfl (by decide) (by simp [Instr.bBits]) (by simp)

theorem fltGetRate : Statement .fltGetRate := by unfold Statement; decide

theorem rdreg (r : BitVec 8) : Statement (.rdreg r) :=
  of_fields .reg 0xFFFF#16 0xFFFFFF00#32 rfl (by decide) (by simp [Instr.bBits]) (lowByte_and r)

end UnusedBitsZero

end Sys2Proof.Laws
end

