-- ==== Sys2Proof/Tests/Slice0.lean ====
section
/-! SUPPORT. The model's own tests.  Expected values are the spec's: the vectors of spec/95_test_vectors.md (named
V-…), the worked encodings of R92, and the corner cases of the rules.  The last part holds, for every statement with
hypotheses, a witness that meets them. -/

namespace Sys2Proof.Tests

open Sys2Proof Sys2Proof.Machine

/-! ### Helpers -/

/-- The response of one command. -/
def answer (i : Instr) (s : State) : Option Response :=
  match exec i s with
  | .next t => t.response
  | _ => none

/-- The state after one command. -/
def after (i : Instr) (s : State) : State :=
  match exec i s with
  | .next t => t
  | _ => s

/-- The response to one word. -/
def answerWord (w : Command) (s : State) : Option Response :=
  match runWord w s with
  | .next t => t.response
  | _ => none

/-- A response with status OK. -/
def ok (r : Result) : Option Response := some { status := .ok, result := r }

/-- A response with another status. -/
def notOk (st : Status) : Option Response := some { status := st, result := 0#64 }

/-- WT[0x100..0x103] = 100, 200, 300, 400, low byte first (spec/95_test_vectors.md 2.4). -/
def vectorTable : Memory :=
  [(0x200, 100#8), (0x201, 0#8), (0x202, 200#8), (0x203, 0#8), (0x204, 0x2C#8), (0x205, 1#8), (0x206, 0x90#8),
    (0x207, 1#8)]

/-- The set-up S(rep, 2000) of spec/95_test_vectors.md 2.4, at a phase. -/
def voice (rep : Bool) (phase : BitVec 32) : State :=
  { State.reset with
    wt := vectorTable
    osc := { State.reset.osc with
      running := true, looping := rep, phase := phase, freq := 2000#32, rate := 100000#32,
      alpha := 703687441#64, delta := 20971#64, tbase := 0x100#32, tlen := 4#16 } }

/-- The faulted state of V-OSC-10: INDEX_RANGE with index 7. -/
def faulted : State := { State.reset with fault := { cause := 1#4, info := 7#64 } }

/-- The filter of V-FLT-10: ft = 2^25, band-pass -3, resonance 0. -/
def smallNegative : State :=
  { State.reset with flt := { State.reset.flt with ft := 33554432#64, bp := 0xFFFD#16 } }

/-! ### Well-formedness: an ill-formed term for the one check (R211) -/

theorem test_wf_refuses_register_02 : (Instr.rdreg 0x02#8).wf = false := by decide

theorem test_wf_refuses_register_19_and_28 : (Instr.rdreg 0x19#8).wf = false ∧ (Instr.rdreg 0x28#8).wf = false := by
  decide

theorem test_wf_accepts_register_27 : (Instr.rdreg 0x27#8).wf = true := by decide

/-! ### Decoding: a word for every constructor, from R83, R92 and the vectors -/

theorem test_decode_sample :
    decode 0x1000000075302710#64 = .legal (.sadd 30000#16 10000#16) ∧
    decode 0x110000000064FED4#64 = .legal (.smul 100#16 (BitVec.ofInt 16 (-300))) ∧
    decode 0x1200000000644000#64 = .legal (.snmul 100#16 16384#16) ∧
    decode 0x130000000000FFFF#64 = .legal (.sclip (BitVec.ofInt 16 (-1))) := by decide

theorem test_decode_lfsr :
    decode 0x2000000000000000#64 = .legal .lfsr16Next ∧ decode 0x2100000000000000#64 = .legal .lfsr32Next ∧
    decode 0x2200000000000000#64 = .legal .noiseTick := by decide

theorem test_decode_osc_lifecycle :
    decode 0x3000000000000000#64 = .legal .oscTick ∧ decode 0x3100000000000000#64 = .legal .oscStart ∧
    decode 0x3200000000000000#64 = .legal .oscStop ∧ decode 0x3300000000000000#64 = .legal .oscReset ∧
    decode 0x3400000000000000#64 = .legal .oscResetStart ∧
    decode 0x3500000000000000#64 = .legal .oscStopReset := by decide

theorem test_decode_osc_parameters :
    decode 0x36000000000007D0#64 = .legal (.oscSetFreq 2000#32) ∧
    decode 0x37000000000186A0#64 = .legal (.oscSetRate 100000#32) ∧
    decode 0x3800000000000000#64 = .legal .oscGetRate ∧
    decode 0x3900000400000100#64 = .legal (.oscSetTable 0x100#32 4#16) ∧
    decode 0x3A00000000000001#64 = .legal (.oscSetRepeat true) := by decide

theorem test_decode_filter :
    decode 0x400000000000FFFB#64 = .legal (.fltTick (BitVec.ofInt 16 (-5))) ∧
    decode 0x41000000000F4240#64 = .legal (.fltSetFreq 1000000#32) ∧
    decode 0x4200000004000000#64 = .legal (.fltSetRes 67108864#32) ∧
    decode 0x430000000541D340#64 = .legal (.fltSetRate 88200000#32) ∧
    decode 0x4400000000000000#64 = .legal .fltGetRate := by decide

theorem test_decode_system : decode 0xF000000000000011#64 = .legal (.rdreg 0x11#8) := by decide

/-- V-SYS-4 to V-SYS-13: each illegal word is refused for its reason. -/
theorem test_decode_illegal :
    decode 0x0000000000000000#64 = .illegal .unassignedOp ∧
    decode 0x1001000000000000#64 = .illegal .reservedBits ∧
    decode 0x1300000000010000#64 = .illegal .unusedOperandBits ∧
    decode 0x3000000000000001#64 = .illegal .unusedOperandBits ∧
    decode 0x3A00000000000002#64 = .illegal .unusedOperandBits ∧
    decode 0xF000000000000002#64 = .illegal .registerNumber ∧
    decode 0xF000000000000110#64 = .illegal .unusedOperandBits ∧
    decode 0x1000000100000000#64 = .illegal .unusedOperandBits ∧
    decode 0x4500000000000000#64 = .illegal .unassignedOp ∧
    decode 0x3901000000000000#64 = .illegal .reservedBits := by decide

theorem test_encode_table_word : encode (.oscSetTable 0x100#32 4#16) = 0x3900000400000100#64 := by decide

/-! ### Sample arithmetic -/

/-- V-ALU-1, V-ALU-4. -/
theorem test_sadd_saturates :
    answer (.sadd 30000#16 10000#16) .reset = ok 0x7FFF#64 ∧
    answer (.sadd 0x8000#16 0x8000#16) .reset = ok 0x8000#64 := by decide

/-- V-ALU-7. -/
theorem test_sadd_mixed_signs : answer (.sadd 0xFF9C#16 50#16) .reset = ok 0xFFCE#64 := by decide

/-- V-ALU-8, V-ALU-11. -/
theorem test_smul :
    answer (.smul 100#16 0xFED4#16) .reset = ok 0x8AD0#64 ∧
    answer (.smul 0x8000#16 0xFFFF#16) .reset = ok 0x7FFF#64 := by decide

/-- V-ALU-21, V-ALU-22: toward zero, not floor. -/
theorem test_snmul_rounds_toward_zero :
    answer (.snmul 0xFFFD#16 16384#16) .reset = ok 0xFFFF#64 ∧
    answer (.snmul 0xFFFF#16 1#16) .reset = ok 0#64 := by decide

/-- V-ALU-17, V-ALU-24. -/
theorem test_snmul_extremes :
    answer (.snmul 0x8000#16 0x8000#16) .reset = ok 0x7FFF#64 ∧
    answer (.snmul 0x8000#16 0x7FFF#16) .reset = ok 0x8001#64 := by decide

/-- R112's other rounding: floor would give -2 and -1. -/
theorem test_divn_floor : divn .floor (-3 * 16384) 32768 = -2 ∧ divn .floor (-1) 32768 = -1 := by decide

/-- V-ALU-27 to V-ALU-29. -/
theorem test_sclip :
    answer (.sclip 0x8000#16) .reset = ok 1#64 ∧ answer (.sclip 0x7FFE#16) .reset = ok 0#64 ∧
    answer (.sclip 0x8001#16) .reset = ok 0#64 := by decide

/-! ### LFSR and noise -/

/-- V-LFSR-1, first call; V-LFSR-6. -/
theorem test_lfsr16_first :
    answer .lfsr16Next .reset = ok 0xE270#64 ∧ (after .lfsr16Next .reset).lfsr32 = 0xACE1#32 := by decide

/-- V-LFSR-1, sixth call: 0x0E27 is odd, so the mask is XORed in. -/
theorem test_lfsr16_odd :
    answer .lfsr16Next { State.reset with lfsr16 := 0x0E27#16 } = ok 0xB313#64 := by decide

/-- V-LFSR-4, first and second calls. -/
theorem test_lfsr32 :
    answer .lfsr32Next .reset = ok 0x80205673#64 ∧
    answer .lfsr32Next { State.reset with lfsr32 := 0x80205673#32 } = ok 0xC0302B3A#64 := by decide

/-- V-NOISE-1, first and seventh calls. -/
theorem test_noise :
    answer .noiseTick .reset = ok 0x298C#64 ∧
    answer .noiseTick { State.reset with lfsr32 := 0xEC3B02B1#32 } = ok 0xFEA4#64 := by decide

/-- V-NOISE-3: the transform at its corners. -/
theorem test_noise_corners :
    sampleResult (noiseSample 0x00000000#32) = 0x7FFF#64 ∧ sampleResult (noiseSample 0x00007FFF#32) = 0#64 ∧
    sampleResult (noiseSample 0x00008000#32) = 0xFFFF#64 ∧
    sampleResult (noiseSample 0x0000FFFF#32) = 0x8000#64 := by decide

/-! ### Oscillator -/

/-- V-SCL-1 to V-SCL-5. -/
theorem test_alpha :
    alphaOf 44100000 = 1595663 ∧ alphaOf 48000000 = 1466015 ∧ alphaOf 100000 = 703687441 ∧
    alphaOf 1 = 70368744177664 ∧ alphaOf 0xFFFFFFFF = 16384 := by decide

/-- V-SCL-10, V-SCL-12: the two scaler paths. -/
theorem test_scale_paths :
    scaleBy .exchange 22050000 44100000 1595663 = 524287 ∧ scaleBy .direct 22050000 44100000 1595663 = 524288 ∧
    scaleBy .exchange 0xFFFFFFFF 44100000 1595663 = 102122431 ∧
    scaleBy .direct 0xFFFFFFFF 44100000 1595663 = 102122440 := by decide

/-- V-OSC-1. -/
theorem test_tick_stopped : answer .oscTick .reset = notOk .noSample := by decide

/-- V-OSC-3, tick 13: OK 200 at phase 272 623, index 1. -/
theorem test_tick_sample :
    answer .oscTick (voice false 251652#32) = ok 200#64 ∧
    (after .oscTick (voice false 251652#32)).osc.phase = 272623#32 ∧
    (after .oscTick (voice false 251652#32)).osc.index = 1#16 := by decide

/-- V-OSC-4, tick 51: NONE, phase 0, Stopped. -/
theorem test_tick_one_shot_wrap :
    answer .oscTick (voice false 1048550#32) = notOk .noSample ∧
    (after .oscTick (voice false 1048550#32)).osc.phase = 0#32 ∧
    (after .oscTick (voice false 1048550#32)).osc.running = false := by decide

/-- V-OSC-7, tick 51: OK 100 at phase 20 945. -/
theorem test_tick_looping_wrap :
    answer .oscTick (voice true 1048550#32) = ok 100#64 ∧
    (after .oscTick (voice true 1048550#32)).osc.phase = 20945#32 := by decide

/-- V-OSC-10: INDEX_RANGE with index 7; the phase is not written. -/
theorem test_tick_index_range :
    let s := { voice true 1048575#32 with osc := { (voice true 1048575#32).osc with delta := 2097151#64 } }
    answer .oscTick s = notOk .fault ∧ (after .oscTick s).fault = { cause := 1#4, info := 7#64 } ∧
      (after .oscTick s).osc = s.osc := by decide

/-- V-OSC-13, tick 26: WT_ADDR with address 0x102. -/
theorem test_tick_wt_addr :
    let s := { voice false 524275#32 with params := { State.reset.params with wtSize := 0x102 } }
    answer .oscTick s = notOk .fault ∧ (after .oscTick s).fault = { cause := 2#4, info := 0x102#64 } := by decide

/-- R154, R155. -/
theorem test_start_stop :
    (after .oscStart (after .oscStop (voice true 5000#32))).osc = (voice true 5000#32).osc ∧
    (after .oscStop (voice true 5000#32)).osc.running = false := by decide

/-- R156 to R158. -/
theorem test_phase_resets :
    (after .oscReset (voice true 5000#32)).osc = (voice true 0#32).osc ∧
    (after .oscStopReset (voice true 777#32)).osc.running = false ∧
    (after .oscResetStart .reset).osc.running = true := by decide

/-- V-SCL-14: f = 2000 at rate 100 000 gives 20 971. -/
theorem test_set_rate_then_freq :
    (after (.oscSetFreq 2000#32) (after (.oscSetRate 100000#32) .reset)).osc.delta = 20971#64 ∧
    (after (.oscSetRate 100000#32) .reset).osc.alpha = 703687441#64 := by decide

/-- V-OSC-16. -/
theorem test_set_rate_zero :
    answer (.oscSetRate 0#32) .reset = notOk .rejected ∧
    (after (.oscSetRate 0#32) .reset).osc = State.reset.osc := by decide

/-- V-OSC-17 and V-FLT-15. -/
theorem test_get_rates :
    answer .oscGetRate .reset = ok 0x2A0E9A0#64 ∧ answer .fltGetRate .reset = ok 0x2A0E9A0#64 := by decide

/-- R162, R163. -/
theorem test_set_table_repeat :
    (after (.oscSetTable 0x200#32 2#16) .reset).osc.tbase = 0x200#32 ∧
    (after (.oscSetTable 0x200#32 2#16) .reset).osc.tlen = 2#16 ∧
    (after (.oscSetRepeat true) .reset).osc.looping = true := by decide

/-! ### Filter -/

/-- V-FLT-4, first tick. -/
theorem test_flt_impulse :
    answer (.fltTick 10000#16) (after (.fltSetFreq 1000000#32) .reset) = ok 0x2710271000E20000#64 := by decide

/-- V-FLT-10: toward zero on negative products. -/
theorem test_flt_small_negative : answer (.fltTick 0#16) smallNegative = ok 0x00030004FFFFFFFF#64 := by decide

/-- V-FLT-6 and V-FLT-7, first tick: wrap gives band-pass -2, saturate 32767. -/
theorem test_flt_overflow_policies :
    filterTick .wrap .towardZero 134217728 67108864 0 0 32767 = { lp := 0, bp := -2, hp := 32767, notch := 32767 } ∧
    filterTick .saturate .towardZero 134217728 67108864 0 0 32767 =
      { lp := 0, bp := 32767, hp := 32767, notch := 32767 } := by decide

/-- V-FLT-12, V-FLT-13. -/
theorem test_flt_coefficients :
    (after (.fltSetFreq 1000000#32) .reset).flt.ft = 1521742#64 ∧
    (after (.fltSetRate 88200000#32) (after (.fltSetFreq 1000000#32) .reset)).flt.ft = 760871#64 := by decide

/-- V-FLT-11. -/
theorem test_flt_resonance :
    (after (.fltSetRes 0xFFFFFFFF#32) .reset).flt.qinv = 0#64 ∧
    (after (.fltSetRes 16777216#32) .reset).flt.qinv = 50331648#64 := by decide

/-- V-FLT-14. -/
theorem test_flt_rate_zero : answer (.fltSetRate 0#32) .reset = notOk .rejected := by decide

/-! ### System, faults, the host -/

/-- V-SYS-1, V-OSC-24. -/
theorem test_rdreg :
    answer (.rdreg 0x14#8) .reset = ok 0x18590F#64 ∧ answer (.rdreg 0x10#8) (voice true 0#32) = ok 3#64 := by decide

/-- V-SYS-14: a faulted block answers FAULT, also to an illegal word; a legal RDREG executes. -/
theorem test_faulted_block :
    answerWord 0x1000000000010002#64 faulted = notOk .fault ∧
    answerWord 0x0000000000000000#64 faulted = notOk .fault ∧
    answerWord 0xF000000000000002#64 faulted = notOk .fault ∧
    answerWord 0xF000000000000001#64 faulted = ok 7#64 := by decide

/-- V-SYS-4. -/
theorem test_illegal_word : answerWord 0x0000000000000000#64 .reset = notOk .illegal := by decide

/-- V-SYS-15, the reset: WT and the parameters stay, the fault goes. -/
theorem test_reset_clears_fault :
    (assertReset { faulted with wt := vectorTable }).fault = { cause := 0#4, info := 0#64 } ∧
    (assertReset { faulted with wt := vectorTable }).wt = vectorTable := by decide

/-- A step of the reset state with a word placed runs that word. -/
theorem test_step_runs_placed_word :
    (match step (State.reset.withFetchWord 64 0x1000000075302710) with
      | .next t => t.response
      | _ => none) = ok 0x7FFF#64 := by decide

theorem test_decode_table_word :
    decodeTableWord 64 0x3A00000000000001 = some (.oscSetRepeat true) ∧ decodeTableWord 64 0 = none := by decide

/-- R62: an entry is stored low byte first. -/
theorem test_wt_little_endian :
    Memory.setEntry [] 0x100 0x1234#16 = [(0x200, 0x34#8), (0x201, 0x12#8)] := by decide

/-- R90: comments, hex, signs and register names; an operand out of its field's range is refused. -/
theorem test_assembler :
    assembleLine "RDREG OSC_CTRL ; flags" = .word 0xF000000000000010#64 ∧
    assembleLine "  ; nothing" = .blank ∧ assembleLine "SCLIP 32768" = .refusedLine ∧
    assembleLine "OSC_SET_REPEAT 2" = .refusedLine ∧ assembleLine "OSC_TICK 1" = .refusedLine := by decide

/-! ### Witnesses: hypotheses that can be met -/

theorem reset_live : State.reset.fault.cause = 0#4 := by decide

theorem faulted_cause : faulted.fault.cause ≠ 0#4 := by decide

/-- The hypotheses of every statement about one command of a block that is not faulted. -/
theorem witness_live_block : ∃ s : State, s.fault.cause = 0#4 := ⟨.reset, reset_live⟩

/-- ResetEstablishesInvariant. -/
theorem witness_params_wf : Config.openParams.wf := by decide

/-- DerivedAgree of a state with the filter at 1 kHz (DoublingRateHalvesFt). -/
theorem witness_doubling_rate :
    ∃ (s : State) (r : MilliHertz), s.fault.cause = 0#4 ∧ DerivedAgree s ∧ s.flt.rate ≠ 0#32 ∧
      r.toNat = 2 * s.flt.rate.toNat :=
  ⟨after (.fltSetFreq 1000000#32) .reset, 88200000#32, by decide,
    { alpha := by decide, delta := by decide, ft := by decide, qinv := by decide }, by decide, by decide⟩

/-- DoublingRateHalvesFt's arithmetic clauses. -/
theorem witness_ft_order : (3 : Nat) ≤ 4 ∧ 0 < (1 : Nat) ∧ (1 : Nat) ≤ 2 := by decide

/-- The reset state meets the invariant. -/
theorem reset_inv : Inv State.reset where
  derived := { alpha := by decide, delta := by decide, ft := by decide, qinv := by decide }
  ranges :=
    { phase := by decide, oscRate := by decide, fltRate := by decide, lfsr16 := by decide, lfsr32 := by decide,
      cause := by decide, faultInfo := fun _ => rfl }
  wt := { wf := List.Pairwise.nil, inside := fun _ h => (List.not_mem_nil h).elim, idle := rfl }
  params := by decide

/-- StepKeepsInvariant, with a command that the step runs. -/
theorem witness_step_keeps_invariant :
    ∃ s t : State, Inv s ∧ s.host ≠ [] ∧ step s = .next t :=
  ⟨{ State.reset with host := [.command 0x2000000000000000#64 []] },
    { State.reset with
      lfsr16 := 0xE270#16
      response := ok 0xE270#64 },
    { derived := { alpha := reset_inv.derived.alpha, delta := reset_inv.derived.delta,
                   ft := reset_inv.derived.ft, qinv := reset_inv.derived.qinv }
      ranges := { phase := reset_inv.ranges.phase, oscRate := reset_inv.ranges.oscRate,
                  fltRate := reset_inv.ranges.fltRate, lfsr16 := reset_inv.ranges.lfsr16,
                  lfsr32 := reset_inv.ranges.lfsr32, cause := reset_inv.ranges.cause,
                  faultInfo := reset_inv.ranges.faultInfo }
      wt := { wf := reset_inv.wt.wf, inside := reset_inv.wt.inside, idle := reset_inv.wt.idle }
      params := reset_inv.params }, by decide, rfl⟩

/-- ResetAbandonsCommand's second clause: a faulted block, a reset, no fault. -/
theorem witness_reset_clears_fault :
    ∃ s t : State, s.fault.cause ≠ 0#4 ∧ step s = .next t ∧ t.fault.cause = 0#4 :=
  ⟨{ faulted with host := [.reset] }, .reset, by decide, rfl, by decide⟩

/-- DecodeEncodeRoundTrip, with an instruction whose well-formedness is a real check. -/
theorem witness_wf : (Instr.rdreg 0x31#8).wf = true := by decide

/-- EncodeDecodeRoundTrip and StepRunsDecodedInstruction. -/
theorem witness_legal_word : decode 0xF000000000000031#64 = .legal (.rdreg 0x31#8) := by decide

/-- DecoderFollowsOpcodeMap's second clause. -/
theorem witness_row_selected :
    ∃ row ∈ opcodeTable, (0x3A00000000000001#64 &&& row.mask) = row.pattern :=
  ⟨⟨.oscSetRepeat, 0x3A00000000000000#64, 0xFFFFFFFFFFFFFFFE#64⟩, by decide, by decide⟩

/-- IllegalWordChangesNothing. -/
theorem witness_illegal_word :
    ∃ w why s, decode w = .illegal why ∧ State.fault s = { cause := 0#4, info := 0#64 } :=
  ⟨0x4500000000000000#64, .unassignedOp, .reset, by decide, by decide⟩

/-- FaultedBlockExecutesOnlyRdreg, the word that is not executed and the one that is. -/
theorem witness_faulted_words :
    faulted.fault.cause ≠ 0#4 ∧ (¬ isLegalRdreg 0x1000000000010002#64) ∧ isLegalRdreg 0xF000000000000001#64 := by
  refine ⟨by decide, fun ⟨r, h⟩ => ?_, 0x01#8, by decide⟩
  rw [show decode 0x1000000000010002#64 = .legal (.sadd 1#16 2#16) by decide] at h
  cases h

/-- NoSecondFault: a faulted block with a command to come. -/
theorem witness_no_second_fault :
    ∃ s t : State, s.fault.cause ≠ 0#4 ∧ step s = .next t ∧ s.host ≠ [] ∧
      ∀ e rest, s.host = e :: rest → e ≠ .reset ∧ ∀ w ws, e ≠ .abandonedCommand w ws := by
  refine ⟨{ faulted with host := [.command 0x3000000000000000#64 []] },
    { faulted with response := notOk .fault }, by decide, rfl, by decide, fun e rest h => ?_⟩
  cases h
  exact ⟨nofun, nofun⟩

/-- OnlyTickRaisesFault: a tick that faults. -/
theorem witness_fault_raised :
    ∃ s t : State, exec .oscTick s = .next t ∧ t.fault ≠ s.fault :=
  let s := { voice true 0#32 with osc := { (voice true 0#32).osc with tlen := 0#16 } }
  ⟨s, after .oscTick s, rfl, by decide⟩

/-- OnlyListedCommandsWrite and CommandsLeaveWtAlone; the flags' clauses. -/
theorem witness_flags_written :
    (∃ t, exec .oscStart State.reset = .next t ∧ t.osc.running ≠ State.reset.osc.running) ∧
    (∃ t, exec (.oscSetRepeat true) State.reset = .next t ∧ t.osc.looping ≠ State.reset.osc.looping) :=
  ⟨⟨after .oscStart .reset, rfl, by decide⟩, ⟨after (.oscSetRepeat true) .reset, rfl, by decide⟩⟩

/-- OnlyTickReadsWt. -/
theorem witness_not_tick : Instr.oscStart ≠ .oscTick := by decide

/-- IdleBlockHoldsState. -/
theorem witness_idle : State.reset.host = [] := rfl

/-- HostWriteChangesOneEntry at the last entry, AbsentEntryWriteStops just past it. -/
theorem witness_host_writes :
    (∃ w : WtWrite, w.addr.toNat < State.reset.params.wtSize) ∧
    (∃ w : WtWrite, State.reset.params.wtSize ≤ w.addr.toNat) :=
  ⟨⟨⟨4095#32, 1#16⟩, by decide⟩, ⟨⟨4096#32, 1#16⟩, by decide⟩⟩

/-- ContractKeepingHostNeverStops, with a write of the last entry of WT. -/
theorem witness_contract :
    ∃ (s : State) (e : HostEvent) (rest : List HostEvent), s.host = e :: rest ∧ e.keepsContract s.params :=
  ⟨{ State.reset with host := [.writeWt ⟨4095#32, 1#16⟩] }, .writeWt ⟨4095#32, 1#16⟩, [], rfl,
    (by decide : (4095#32).toNat < 4096)⟩

/-- SnmulCornerCases. -/
theorem witness_snmul_pair :
    (¬ ((0x8000#16 : Sample) = 0x8000#16 ∧ (0x8001#16 : Sample) = 0x8000#16)) ∧
    (0 < (32767 : Int) ∧ (32767 : Int) ≤ 32767) := by
  decide

/-- SampleCommandsArePure. -/
theorem witness_sample_command :
    (Instr.sclip 0#16).mnemonic ∈ [Mnemonic.sadd, .smul, .snmul, .sclip] := by decide

/-- Lfsr16Advances, Lfsr32Advances and NoiseTickSubtractsLowHalf. -/
theorem witness_lfsr_values :
    (0xE270#16 = (State.reset.lfsr16 >>> 1) ^^^ (if State.reset.lfsr16.getLsbD 0 then 0xB400#16 else 0#16)) ∧
    (0x80205673#32 =
      (State.reset.lfsr32 >>> 1) ^^^ (if State.reset.lfsr32.getLsbD 0 then 0x80200003#32 else 0#32)) := by decide

/-- Lfsr16FullPeriod and Lfsr32FullPeriod. -/
theorem witness_nonzero_lfsr : (1#16 : BitVec 16) ≠ 0#16 ∧ (1#32 : BitVec 32) ≠ 0#32 := by decide

/-- OscTickFollowsPseudocode: Stopped; OneShot at exactly PHI_MAX. -/
theorem witness_tick_stopped_and_end :
    (∃ s : State, s.fault.cause = 0#4 ∧ s.osc.running = false) ∧
    (∃ s : State, s.fault.cause = 0#4 ∧ s.osc.running = true ∧ s.osc.phase.toNat + s.osc.delta.toNat = 1048576 ∧
      s.osc.looping = false) :=
  ⟨⟨.reset, by decide⟩, ⟨voice false 1027605#32, by decide⟩⟩

/-- OscTickFollowsPseudocode, lookup clauses: INDEX_RANGE from an empty table. -/
theorem witness_tick_index_range :
    ∃ (s : State) (p idx : Nat), s.fault.cause = 0#4 ∧ s.osc.running = true ∧
      p = s.osc.phase.toNat + s.osc.delta.toNat ∧ p < 1048576 ∧ idx = s.osc.tlen.toNat * p / 1048576 ∧
      s.osc.tlen.toNat ≤ idx :=
  ⟨{ voice false 0#32 with osc := { (voice false 0#32).osc with tlen := 0#16 } }, 20971, 0, by decide⟩

/-- OscTickFollowsPseudocode, lookup clauses: WT_ADDR at exactly WT_SIZE, from a Looping wrap at exactly PHI_MAX. -/
theorem witness_tick_wt_addr :
    ∃ (s : State) (p idx addr : Nat), s.fault.cause = 0#4 ∧ s.osc.running = true ∧ s.osc.looping = true ∧
      p + 1048576 = s.osc.phase.toNat + s.osc.delta.toNat ∧ idx = s.osc.tlen.toNat * p / 1048576 ∧
      addr = s.osc.tbase.toNat + idx ∧ idx < s.osc.tlen.toNat ∧ s.params.wtSize = addr :=
  ⟨{ voice true 1027605#32 with params := { State.reset.params with wtSize := 0x100 } }, 0, 0, 0x100, by decide⟩

/-- OscTickFollowsPseudocode and OverlappedReadIsFree: the last entry of WT, with no host write in progress and
with one. -/
theorem witness_tick_sample :
    ∃ (s u : State) (p idx addr : Nat), u = { s with overlap := [⟨0x103#32, 5#16⟩] } ∧ s.fault.cause = 0#4 ∧
      s.osc.running = true ∧ p = s.osc.phase.toNat + s.osc.delta.toNat ∧ p < 1048576 ∧
      idx = s.osc.tlen.toNat * p / 1048576 ∧ addr = s.osc.tbase.toNat + idx ∧ idx < s.osc.tlen.toNat ∧
      addr + 1 = s.params.wtSize ∧ (∀ w ∈ s.overlap, w.addr.toNat ≠ addr) ∧ (∃ w ∈ u.overlap, w.addr.toNat = addr) :=
  ⟨{ voice false 1027579#32 with params := { State.reset.params with wtSize := 0x104 } }, _, 1048550, 3, 0x103,
    rfl, by decide⟩

/-- The prepared oscillator is ready: a table that ends exactly at the end of WT. -/
theorem voice_ready (rep : Bool) (phase : BitVec 32) :
    OscReady { voice rep phase with params := { State.reset.params with wtSize := 0x104 } } where
  tableNonempty := (by decide : 0 < (4#16).toNat)
  tableInside := (by decide : (0x100#32).toNat + (4#16).toNat ≤ 0x104)
  increment := fun _ => (by decide : (20971#64).toNat < Config.phiMax)

/-- ReadyOscillatorNeverFaults and LoopingPhaseIsModular, at the highest phase. -/
theorem witness_ready :
    ∃ s : State, s.fault.cause = 0#4 ∧ s.osc.running = true ∧ s.osc.looping = true ∧ OscReady s ∧
      s.osc.phase.toNat = 1048575 :=
  ⟨{ voice true 1048575#32 with params := { State.reset.params with wtSize := 0x104 } }, by decide, by decide,
    by decide, voice_ready true _, by decide⟩

/-- LoopingPhaseIsModular, the gap between wraps, from the highest phase a wrap can leave. -/
theorem witness_gap :
    ∃ (s : State) (g : Nat), s.fault.cause = 0#4 ∧ s.osc.running = true ∧ s.osc.looping = true ∧ OscReady s ∧
      s.osc.phase.toNat < 1048576 ∧ s.osc.phase.toNat + 1 = s.osc.delta.toNat ∧
      g = (1048576 - s.osc.phase.toNat + s.osc.delta.toNat - 1) / s.osc.delta.toNat ∧ g = 50 :=
  ⟨{ voice true 20970#32 with params := { State.reset.params with wtSize := 0x104 } }, 50, by decide, by decide,
    by decide, voice_ready true _, by decide, by decide, by decide, rfl⟩

/-- OneShotCycleLength: V-OSC-2's oscillator, whose 50 samples all lie in WT. -/
theorem witness_one_shot :
    ∃ (s : State) (n : Nat), s.fault.cause = 0#4 ∧ s.osc.running = true ∧ s.osc.looping = false ∧
      s.osc.phase = 0#32 ∧ 0 < s.osc.delta.toNat ∧ s.osc.delta.toNat < 1048576 ∧ 0 < s.osc.tlen.toNat ∧
      n = 1048575 / s.osc.delta.toNat ∧
      ∀ k, 1 ≤ k → k ≤ n →
        s.osc.tbase.toNat + s.osc.tlen.toNat * (k * s.osc.delta.toNat) / 1048576 < s.params.wtSize := by
  refine ⟨voice false 0#32, 50, by decide, by decide, by decide, by decide, by decide, by decide, by decide,
    by decide, fun k _ h => ?_⟩
  have : 4 * (k * 20971) / 1048576 < 4 := by omega
  show 256 + 4 * (k * 20971) / 1048576 < 4096
  omega

/-- ZeroFrequencyHoldsIndex. -/
theorem witness_zero_frequency :
    ∃ (s : State) (idx : Nat), s.fault.cause = 0#4 ∧ s.osc.running = true ∧ s.osc.delta = 0#64 ∧
      s.osc.phase.toNat < 1048576 ∧ idx = s.osc.tlen.toNat * s.osc.phase.toNat / 1048576 ∧ 0 < s.osc.tlen.toNat ∧
      s.osc.tbase.toNat + idx < s.params.wtSize ∧ s.overlap = [] :=
  ⟨{ voice false 1048575#32 with osc := { (voice false 1048575#32).osc with delta := 0#64 } }, 3, by decide⟩

/-- The rate setters, SetterOrderDoesNotMatter and RejectedOnlyAtRateZero: a rate of each kind. -/
theorem witness_rates : (1#32 : MilliHertz) ≠ 0#32 ∧ (0#32 : MilliHertz) = 0#32 := by decide

/-- SetFreqDerivesDelta: OSC_ALPHA at the top of its range. -/
theorem witness_alpha_range :
    ∃ s : State, s.fault.cause = 0#4 ∧ s.osc.alpha.toNat = 70368744177664 :=
  ⟨after (.oscSetRate 1#32) .reset, by decide⟩

/-- FltTickFollowsOrder: V-FLT-10's four values. -/
theorem witness_flt_tick :
    let f := smallNegative.flt
    (-1 : Int) = (BitVec.ofInt 16 (f.lp.toInt + ((f.ft.toNat : Int) * f.bp.toInt).tdiv 67108864)).toInt ∧
    (4 : Int) =
      (BitVec.ofInt 16 ((0#16).toInt - (-1) - ((f.qinv.toNat : Int) * f.bp.toInt).tdiv 67108864)).toInt ∧
    (-1 : Int) = (BitVec.ofInt 16 (f.bp.toInt + ((f.ft.toNat : Int) * 4).tdiv 67108864)).toInt ∧
    (3 : Int) = (BitVec.ofInt 16 (4 + -1)).toInt := by decide

/-- FilterDeadBand: V-FLT-9's fixed point (0, -44, 44). -/
theorem witness_dead_band :
    ∃ s : State, s.fault.cause = 0#4 ∧ s.flt.qinv = 67108864#64 ∧ s.flt.lp = 0#16 ∧ s.flt.hp = -s.flt.bp ∧
      ((s.flt.ft.toNat : Int) * s.flt.bp.toInt).natAbs < 67108864 :=
  ⟨{ State.reset with flt := { State.reset.flt with ft := 1521742#64, bp := 0xFFD4#16, hp := 44#16 } }, by decide⟩

/-- OverflowPoliciesAgreeInRange: V-FLT-10 again. -/
theorem witness_policies :
    ∃ e1 e2 e3 e4 : Int, e1 = 0 + divn .towardZero (33554432 * -3) 67108864 ∧
      e2 = 0 - e1 - divn .towardZero (67108864 * -3) 67108864 ∧
      e3 = -3 + divn .towardZero (33554432 * e2) 67108864 ∧ e4 = e2 + e1 ∧
      ∀ e ∈ [e1, e2, e3, e4], -32768 ≤ e ∧ e ≤ 32767 :=
  ⟨-1, 4, -1, 3, by decide⟩

/-- RdregReadsEveryRegister, at a faulted block; IllegalRdregWords at a number just past a range. -/
theorem witness_rdreg :
    (0x01#8, faulted.fault.info) ∈ [(0x00#8, 1#64), (0x01#8, faulted.fault.info)] ∧
    (0xF000000000000019#64 : Command).extractLsb' 56 8 = 0xF0#8 ∧
    legalRegNumber ((0xF000000000000019#64 : Command).extractLsb' 0 8) = false := by decide

end Sys2Proof.Tests
end

section
/-! PROOFS. Each LFSR step permutes the values of its register and sends only 0 to 0 (O34). -/

namespace Sys2Proof.Machine

open Sys2Proof

/-- A step whose mask has its top bit set sends only 0 to 0: the shift clears the top bit, so a mask that was
XORed in shows there, and with no mask the discarded bit was 0 as well (R130). -/
theorem lfsrStep_eq_zero_iff {n : Nat} {m : BitVec n} (hm : m.msb = true) (r : BitVec n) :
    lfsrStep r m = 0#n ↔ r = 0#n := by
  refine ⟨fun h => ?_, fun h => h ▸ lfsrStep_zero m⟩
  cases hbit : r.getLsbD 0 with
  | true =>
    have hmsb : (lfsrStep r m).msb = true := by simp [lfsrStep, hbit, hm]
    simp [h] at hmsb
  | false =>
    have hshift : r >>> 1 = 0#n := by simpa [lfsrStep, hbit] using h
    apply BitVec.eq_of_getLsbD_eq; intro i _
    cases i with
    | zero => simpa using hbit
    | succ j =>
      have hj : (r >>> 1).getLsbD j = false := by rw [hshift]; simp
      simpa [Nat.add_comm] using hj

/-- The step is linear over XOR, so values with equal steps differ by a value whose step is 0. -/
theorem lfsrStep_injective {n : Nat} {m : BitVec n} (hm : m.msb = true) :
    Function.Injective (fun r : BitVec n => lfsrStep r m) := by
  intro x y h
  have hxor : lfsrStep (x ^^^ y) m = 0#n := by
    rw [lfsrStep_xor, show lfsrStep x m = lfsrStep y m from h, BitVec.xor_self]
  exact BitVec.xor_eq_zero_iff.mp ((lfsrStep_eq_zero_iff hm _).mp hxor)

theorem lfsrStep_bijective {n : Nat} {m : BitVec n} (hm : m.msb = true) :
    Function.Bijective (fun r : BitVec n => lfsrStep r m) :=
  Finite.injective_iff_bijective.mp (lfsrStep_injective hm)

theorem lfsr16Mask_msb : Config.lfsr16Mask.msb = true := by decide

theorem lfsr32Mask_msb : Config.lfsr32Mask.msb = true := by decide

theorem nextLfsr16_eq_zero_iff (r : BitVec 16) : nextLfsr16 r = 0#16 ↔ r = 0#16 :=
  lfsrStep_eq_zero_iff lfsr16Mask_msb r

theorem nextLfsr32_eq_zero_iff (r : BitVec 32) : nextLfsr32 r = 0#32 ↔ r = 0#32 :=
  lfsrStep_eq_zero_iff lfsr32Mask_msb r

/-- Settles O34: both masks have their top bit set. -/
theorem lfsrStepsPermute : Obligations.LfsrStepsPermute :=
  ⟨lfsrStep_bijective lfsr16Mask_msb, lfsrStep_bijective lfsr32Mask_msb,
    nextLfsr16_eq_zero_iff, nextLfsr32_eq_zero_iff⟩

end Sys2Proof.Machine
end

section
/-! PROOFS. Everything a command can do to the block, said once: it only answers, or, from a block that is not
faulted, it writes the registers of one of the cases of `RegWrite`. -/

namespace Sys2Proof.Machine

open Sys2Proof

/-! ### The writes of registers -/

/-- What the oscillator commands other than OSC_TICK write (spec/43_oscillator.md R154 to R160, R162, R163). -/
inductive OscWrite (o : OscRegs) : Instr → OscRegs → Prop
  | start : OscWrite o .oscStart (o.withRunning true)
  | stop : OscWrite o .oscStop (o.withRunning false)
  | reset : OscWrite o .oscReset { o with phase := 0#32 }
  | resetStart : OscWrite o .oscResetStart ({ o with phase := 0#32 }.withRunning true)
  | stopReset : OscWrite o .oscStopReset ({ o with phase := 0#32 }.withRunning false)
  | setFreq (f : MilliHertz) : OscWrite o (.oscSetFreq f) (o.withFreq f)
  | setRate (r : MilliHertz) (hr : r ≠ 0#32) : OscWrite o (.oscSetRate r) (o.withRate r)
  | setTable (base : EntryAddr) (len : BitVec 16) :
      OscWrite o (.oscSetTable base len) { o with tbase := base, tlen := len }
  | setRepeat (f : Bool) : OscWrite o (.oscSetRepeat f) (o.withLooping f)

/-- What the filter commands write (spec/44_filter.md R190 to R193). -/
inductive FltWrite (f : FltRegs) : Instr → FltRegs → Prop
  | tick (x : Sample) : FltWrite f (.fltTick x) (f.withOut (f.tick x))
  | setFreq (v : MilliHertz) :
      FltWrite f (.fltSetFreq v) { f with freq := v, ft := regOfNat 64 (ftOf v.toNat f.rate.toNat) }
  | setRes (r : BitVec 32) : FltWrite f (.fltSetRes r) { f with qinv := regOfNat 64 (qinvOf r.toNat) }
  | setRate (r : MilliHertz) (hr : r ≠ 0#32) :
      FltWrite f (.fltSetRate r) { f with rate := r, ft := regOfNat 64 (ftOf f.freq.toNat r.toNat) }

/-- The next state of a command that writes registers. -/
inductive RegWrite (s : State) : Instr → State → Prop
  | osc {i : Instr} {o : OscRegs} (h : OscWrite s.osc i o) : RegWrite s i (respond .ok 0#64 (s.withOsc o))
  | flt {i : Instr} {f : FltRegs} (result : Result) (h : FltWrite s.flt i f) :
      RegWrite s i (respond .ok result (s.withFlt f))
  | lfsr16Next :
      RegWrite s .lfsr16Next
        (respond .ok (zext64 (nextLfsr16 s.lfsr16)) (s.withLfsr16 (nextLfsr16 s.lfsr16)))
  | lfsr32Next :
      RegWrite s .lfsr32Next
        (respond .ok (zext64 (nextLfsr32 s.lfsr32)) (s.withLfsr32 (nextLfsr32 s.lfsr32)))
  | noiseTick :
      RegWrite s .noiseTick
        (respond .ok (sampleResult (noiseSample (nextLfsr32 s.lfsr32))) (s.withLfsr32 (nextLfsr32 s.lfsr32)))
  | tickFault (c : FaultCause) (n : Nat) (hr : s.osc.running = true) : RegWrite s .oscTick (raiseFault c n s)
  | tickSample (p : Nat) (hr : s.osc.running = true) (hi : tableIndex s.osc p < s.osc.tlen.toNat) :
      RegWrite s .oscTick (lookupDone p s)
  | tickEnd (hr : s.osc.running = true) : RegWrite s .oscTick (oneShotEnd s)

/-- The next state differs from the state in the response alone. -/
def AnswersOnly (s t : State) : Prop := ∃ status result, t = respond status result s

theorem answersOnly_respond (status : Status) (result : Result) (s : State) :
    AnswersOnly s (respond status result s) := ⟨status, result, rfl⟩

/-! ### Every command is one of these cases -/

section
variable {s t u : State} {i : Instr}

theorem lookup_regWrite (p : Nat) (hr : s.osc.running = true) : RegWrite s .oscTick (lookup p s) := by
  rcases lookup_cases p s with ⟨-, h⟩ | ⟨-, -, h⟩ | ⟨hi, -, h⟩
  · exact h ▸ .tickFault _ _ hr
  · exact h ▸ .tickFault _ _ hr
  · exact h ▸ .tickSample p hr hi

theorem oscTick_answersOnly_or_regWrite (s : State) :
    AnswersOnly s (oscTick s) ∨ RegWrite s .oscTick (oscTick s) := by
  rcases oscTick_cases s with ⟨-, h⟩ | ⟨hr, -, h⟩ | ⟨hr, -, -, h⟩ | ⟨hr, -, -, h⟩
  · exact .inl ⟨_, _, h⟩
  · exact .inr (h ▸ lookup_regWrite _ hr)
  · exact .inr (h ▸ lookup_regWrite _ hr)
  · exact .inr (h ▸ .tickEnd hr)

/-- A setter of a sample rate that refuses rate 0 (spec/60_exceptions.md R221). -/
theorem reject_or_regWrite {r : MilliHertz} (h : r ≠ 0#32 → RegWrite s i u) :
    AnswersOnly s (if r = 0#32 then reject s else u) ∨ RegWrite s i (if r = 0#32 then reject s else u) := by
  by_cases hr : r = 0#32
  · rw [if_pos hr]; exact .inl (answersOnly_respond ..)
  · rw [if_neg hr]; exact .inr (h hr)

/-- The effect of a command is seen only from a block that is not faulted (spec/60_exceptions.md R223). -/
theorem whenLive_next (hu : AnswersOnly s u ∨ RegWrite s i u) (h : whenLive s u = .next t) :
    AnswersOnly s t ∨ (s.fault.cause = 0#4 ∧ RegWrite s i t) := by
  rcases whenLive_cases h with ⟨hlive, rfl⟩ | ⟨-, rfl⟩
  · exact hu.imp id fun hw => ⟨hlive, hw⟩
  · exact .inl (answersOnly_respond ..)

theorem execRdreg_answersOnly {r : BitVec 8} (h : execRdreg r s = .next t) : AnswersOnly s t := by
  unfold execRdreg at h
  split at h
  · cases h; exact answersOnly_respond ..
  · rcases whenLive_cases h with ⟨-, rfl⟩ | ⟨-, rfl⟩ <;> exact answersOnly_respond ..

/-- Everything a command can do. -/
theorem exec_cases (h : exec i s = .next t) :
    AnswersOnly s t ∨ (s.fault.cause = 0#4 ∧ RegWrite s i t) := by
  cases i with
  | sadd => exact whenLive_next (.inl (answersOnly_respond ..)) h
  | smul => exact whenLive_next (.inl (answersOnly_respond ..)) h
  | snmul => exact whenLive_next (.inl (answersOnly_respond ..)) h
  | sclip => exact whenLive_next (.inl (answersOnly_respond ..)) h
  | lfsr16Next => exact whenLive_next (.inr .lfsr16Next) h
  | lfsr32Next => exact whenLive_next (.inr .lfsr32Next) h
  | noiseTick => exact whenLive_next (.inr .noiseTick) h
  | oscTick => exact whenLive_next (oscTick_answersOnly_or_regWrite s) h
  | oscStart => exact whenLive_next (.inr (.osc .start)) h
  | oscStop => exact whenLive_next (.inr (.osc .stop)) h
  | oscReset => exact whenLive_next (.inr (.osc .reset)) h
  | oscResetStart => exact whenLive_next (.inr (.osc .resetStart)) h
  | oscStopReset => exact whenLive_next (.inr (.osc .stopReset)) h
  | oscSetFreq f => exact whenLive_next (.inr (.osc (.setFreq f))) h
  | oscSetRate r => exact whenLive_next (reject_or_regWrite fun hr => .osc (.setRate r hr)) h
  | oscGetRate => exact whenLive_next (.inl (answersOnly_respond ..)) h
  | oscSetTable base len => exact whenLive_next (.inr (.osc (.setTable base len))) h
  | oscSetRepeat f => exact whenLive_next (.inr (.osc (.setRepeat f))) h
  | fltTick x => exact whenLive_next (.inr (.flt _ (.tick x))) h
  | fltSetFreq f => exact whenLive_next (.inr (.flt _ (.setFreq f))) h
  | fltSetRes r => exact whenLive_next (.inr (.flt _ (.setRes r))) h
  | fltSetRate r => exact whenLive_next (reject_or_regWrite fun hr => .flt _ (.setRate r hr)) h
  | fltGetRate => exact whenLive_next (.inl (answersOnly_respond ..)) h
  | rdreg r => exact .inl (execRdreg_answersOnly h)

/-- Everything a word can do, legal or not. -/
theorem runWord_cases {w : Command} (h : runWord w s = .next t) :
    AnswersOnly s t ∨ ∃ i, decode w = .legal i ∧ s.fault.cause = 0#4 ∧ RegWrite s i t := by
  unfold runWord at h
  split at h
  case h_1 i hi => exact (exec_cases h).imp id fun hw => ⟨i, hi, hw⟩
  case h_2 =>
    rcases whenLive_cases h with ⟨-, rfl⟩ | ⟨-, rfl⟩ <;> exact .inl (answersOnly_respond ..)

/-! ### What no command writes (spec/20_memory.md R60) -/

/-- Writing registers leaves WT, the parameters, the host's events and its writes in progress. -/
theorem RegWrite.frame (h : RegWrite s i t) :
    t.wt = s.wt ∧ t.params = s.params ∧ t.host = s.host ∧ t.overlap = s.overlap := by
  cases h <;> exact ⟨rfl, rfl, rfl, rfl⟩

theorem AnswersOnly.frame (h : AnswersOnly s t) :
    t.wt = s.wt ∧ t.params = s.params ∧ t.host = s.host ∧ t.overlap = s.overlap := by
  obtain ⟨_, _, rfl⟩ := h
  exact ⟨rfl, rfl, rfl, rfl⟩

end

end Sys2Proof.Machine
end

section
/-! PROOFS. The invariant of the block, register file by register file: reset establishes it (O3) and every step
keeps it (O4). -/

namespace Sys2Proof.Machine

open Sys2Proof

/-! ### The invariant's parts -/

/-- The oscillator's share of the invariant (spec/10_state.md R46, R47, R48). -/
structure OscInv (o : OscRegs) : Prop where
  alpha : o.alpha.toNat = alphaOf o.rate.toNat
  delta : o.delta.toNat = scale o.freq.toNat o.rate.toNat o.alpha.toNat
  phase : o.phase.toNat < Config.phiMax
  rate  : o.rate ≠ 0#32

/-- The filter's share of the invariant (spec/10_state.md R46, R48). -/
structure FltInv (f : FltRegs) : Prop where
  ft   : f.ft.toNat = ftOf f.freq.toNat f.rate.toNat
  qinv : f.qinv.toNat ≤ Config.fltNorm
  rate : f.rate ≠ 0#32

/-- The fault registers' share of the invariant (spec/10_state.md R24, R25). -/
structure FaultInv (f : FaultRegs) : Prop where
  cause : f.cause.toNat ≤ 2
  info  : f.cause = 0#4 → f.info = 0#64

/-- The invariant of the block's own registers, which WT and the host do not enter. -/
structure RegInv (s : State) : Prop where
  osc    : OscInv s.osc
  flt    : FltInv s.flt
  fault  : FaultInv s.fault
  lfsr16 : s.lfsr16 ≠ 0#16
  lfsr32 : s.lfsr32 ≠ 0#32

/-- The invariant is that of the registers, of WT and of the parameters. -/
theorem inv_iff (s : State) : Inv s ↔ RegInv s ∧ WtHolds s ∧ s.params.wf := by
  constructor
  · rintro ⟨⟨halpha, hdelta, hft, hqinv⟩, ⟨hphase, hosc, hflt, h16, h32, hcause, hinfo⟩, hwt, hp⟩
    exact ⟨⟨⟨halpha, hdelta, hphase, hosc⟩, ⟨hft, hqinv, hflt⟩, ⟨hcause, hinfo⟩, h16, h32⟩, hwt, hp⟩
  · rintro ⟨⟨⟨halpha, hdelta, hphase, hosc⟩, ⟨hft, hqinv, hflt⟩, ⟨hcause, hinfo⟩, h16, h32⟩, hwt, hp⟩
    exact ⟨⟨halpha, hdelta, hft, hqinv⟩, ⟨hphase, hosc, hflt, h16, h32, hcause, hinfo⟩, hwt, hp⟩

/-! ### Reset -/

/-- OSC_ALPHA's reset value is that of the reset rate, and no frequency is set. -/
theorem oscAtReset_oscInv (p : Params) : OscInv (.atReset p) where
  alpha := (by decide : 1595663 = alphaOf Config.resetRate.toNat)
  delta := (by decide : 0 = scale 0 Config.resetRate.toNat 1595663)
  phase := (by decide : 0 < Config.phiMax)
  rate := (by decide : Config.resetRate ≠ 0#32)

theorem fltAtReset_fltInv : FltInv .atReset where
  ft := by decide
  qinv := by decide
  rate := by decide

theorem resetWith_regInv (p : Params) : RegInv (State.resetWith p) where
  osc := oscAtReset_oscInv p
  flt := fltAtReset_fltInv
  fault := { cause := Nat.zero_le 2, info := fun _ => rfl }
  lfsr16 := (by decide : Config.lfsr16Seed ≠ 0#16)
  lfsr32 := (by decide : Config.lfsr32Seed ≠ 0#32)

theorem resetWith_wtHolds (p : Params) : WtHolds (State.resetWith p) where
  wf := reset_wf p
  inside := fun _ h => (List.not_mem_nil h).elim
  idle := rfl

/-- Reset establishes the invariant from any state whose WT and parameters meet it (R250). -/
theorem assertReset_inv {s : State} (hwt : WtHolds s) (hp : s.params.wf) : Inv (assertReset s) :=
  (inv_iff _).mpr
    ⟨{ resetWith_regInv s.params with }, { wf := hwt.wf, inside := hwt.inside, idle := rfl }, hp⟩

/-! ### Writes of the oscillator and of the filter -/

/-- A phase written from a value below PHI_MAX keeps the range of R47. -/
theorem OscInv.withPhase {o : OscRegs} (h : OscInv o) {p : Nat} (hp : p < Config.phiMax) :
    OscInv { o with phase := regOfNat 32 p } := by
  have hreg : p < 2 ^ 32 := Nat.lt_trans hp (by decide)
  exact { h with phase := by rwa [regOfNat_toNat hreg] }

/-- A new frequency comes with its increment (R159); OSC_ALPHA is at most 2^46, so the increment fits. -/
theorem OscInv.withFreq {o : OscRegs} (h : OscInv o) (f : MilliHertz) : OscInv (o.withFreq f) := by
  have halpha : o.alpha.toNat ≤ 70368744177664 := h.alpha ▸ alphaOf_le _
  exact { h with delta := regOfNat_toNat (scale_lt f.isLt halpha) }

/-- A new rate comes with its constant and increment (R160). -/
theorem OscInv.withRate {o : OscRegs} (h : OscInv o) {r : MilliHertz} (hr : r ≠ 0#32) :
    OscInv (o.withRate r) := by
  have hle := alphaOf_le r.toNat
  have halpha : (o.withRate r).alpha.toNat = alphaOf r.toNat := regOfNat_toNat (by omega)
  refine { alpha := halpha, delta := ?_, phase := h.phase, rate := hr }
  rw [halpha]
  exact regOfNat_toNat (scale_lt o.freq.isLt hle)

theorem OscWrite.keeps_oscInv {o o' : OscRegs} {i : Instr} (hw : OscWrite o i o') (h : OscInv o) :
    OscInv o' := by
  have hzero : OscInv { o with phase := 0#32 } := h.withPhase (p := 0) (by decide)
  cases hw with
  | start => exact { h with }
  | stop => exact { h with }
  | reset => exact hzero
  | resetStart => exact { hzero with }
  | stopReset => exact { hzero with }
  | setFreq f => exact h.withFreq f
  | setRate r hr => exact h.withRate hr
  | setTable base len => exact { h with }
  | setRepeat f => exact { h with }

theorem FltWrite.keeps_fltInv {f f' : FltRegs} {i : Instr} (hw : FltWrite f i f') (h : FltInv f) :
    FltInv f' := by
  cases hw with
  | tick x => exact { h with }
  | setFreq v => exact { h with ft := regOfNat_toNat (ftOf_lt v.isLt) }
  | setRes r =>
    have hle := qinvOf_le r.toNat
    exact { h with qinv := by rwa [regOfNat_toNat (Nat.lt_of_le_of_lt hle (by decide))] }
  | setRate r hr => exact { h with ft := regOfNat_toNat (ftOf_lt f.freq.isLt), rate := hr }

/-- A fault raised by a command has a cause of R24, and is a fault. -/
theorem raiseFault_faultInv (c : FaultCause) (n : Nat) (s : State) : FaultInv (raiseFault c n s).fault where
  cause := (by cases c <;> decide : c.code.toNat ≤ 2)
  info := fun h => absurd h (code_ne_zero c)

/-! ### Commands -/

/-- A command that writes registers keeps their invariant. -/
theorem RegWrite.keeps_regInv {s t : State} {i : Instr} (hw : RegWrite s i t) (h : RegInv s) : RegInv t := by
  cases hw with
  | osc ho => exact { h with osc := ho.keeps_oscInv h.osc }
  | flt _ hf => exact { h with flt := hf.keeps_fltInv h.flt }
  | lfsr16Next => exact { h with lfsr16 := mt (nextLfsr16_eq_zero_iff _).mp h.lfsr16 }
  | lfsr32Next => exact { h with lfsr32 := mt (nextLfsr32_eq_zero_iff _).mp h.lfsr32 }
  | noiseTick => exact { h with lfsr32 := mt (nextLfsr32_eq_zero_iff _).mp h.lfsr32 }
  | tickFault c n => exact { h with fault := raiseFault_faultInv c n s }
  | tickSample p _ hi => exact { h with osc := { h.osc.withPhase (phase_lt_of_tableIndex_lt hi) with } }
  | tickEnd => exact { h with osc := { h.osc.withPhase (p := 0) (by decide) with } }

theorem runWord_keeps_regInv {w : Command} {s t : State} (h : runWord w s = .next t) (hi : RegInv s) :
    RegInv t := by
  rcases runWord_cases h with ⟨_, _, rfl⟩ | ⟨_, -, -, hw⟩
  · exact { hi with }
  · exact hw.keeps_regInv hi

theorem runWord_frame {w : Command} {s t : State} (h : runWord w s = .next t) :
    t.wt = s.wt ∧ t.params = s.params ∧ t.host = s.host ∧ t.overlap = s.overlap := by
  rcases runWord_cases h with ha | ⟨_, -, -, hw⟩
  · exact ha.frame
  · exact hw.frame

/-! ### Host events -/

/-- Host writes that complete keep the invariant. -/
theorem landWrites_keeps_inv {ws : List WtWrite} {s t : State} (h : landWrites ws s = .next t) (hi : Inv s) :
    Inv t := by
  obtain ⟨hreg, hwt, hp⟩ := (inv_iff s).mp hi
  obtain ⟨m, rfl, hwf, hinside⟩ := landWrites_next h
  exact (inv_iff _).mpr
    ⟨{ hreg with }, { wf := hwf hwt.wf, inside := hinside hwt.inside, idle := hwt.idle }, hp⟩

/-- While the command runs the host's overlapping writes are in progress, so what it keeps is the invariant of the
registers; WT's part holds again once the writes are over. -/
theorem runCommand_keeps_inv {w : Command} {ws : List WtWrite} {s t : State} (h : runCommand w ws s = .next t)
    (hi : Inv s) : Inv t := by
  obtain ⟨hreg, hwt, hp⟩ := (inv_iff s).mp hi
  unfold runCommand at h
  split at h
  case h_1 u hu =>
    obtain ⟨hwtu, hpu, -, -⟩ := runWord_frame hu
    have hregu : RegInv u := runWord_keeps_regInv hu { hreg with }
    refine landWrites_keeps_inv h ((inv_iff _).mpr ⟨{ hregu with }, ?_, hpu ▸ hp⟩)
    exact { wf := hwtu ▸ hwt.wf, inside := hwtu ▸ hpu ▸ hwt.inside, idle := rfl }
  case h_2 => cases h
  case h_3 => cases h

theorem runEvent_keeps_inv {e : HostEvent} {s t : State} (h : runEvent e s = .next t) (hi : Inv s) : Inv t := by
  have hreset : Inv (assertReset s) := assertReset_inv hi.wt hi.params
  cases e with
  | command w ws => exact runCommand_keeps_inv h hi
  | abandonedCommand w ws => exact landWrites_keeps_inv h hreset
  | writeWt write => exact landWrites_keeps_inv h hi
  | reset => cases h; exact hreset

/-- The invariant does not look at the events to come. -/
theorem inv_withHost {s : State} (h : Inv s) (rest : List HostEvent) : Inv { s with host := rest } :=
  let ⟨hreg, hwt, hp⟩ := (inv_iff s).mp h
  (inv_iff _).mpr ⟨{ hreg with }, { hwt with }, hp⟩

theorem step_keeps_inv {s t : State} (h : step s = .next t) (hi : Inv s) : Inv t := by
  unfold step nextEvent at h
  split at h
  case h_1 => cases h; exact hi
  case h_2 e rest _ => exact runEvent_keeps_inv h (inv_withHost hi rest)

/-! ### The obligations -/

/-- Settles O4: every host event runs commands, completes host writes or resets, and each of these keeps the
invariant. -/
theorem stepKeepsInvariant : Obligations.StepKeepsInvariant :=
  fun _ _ hi h => step_keeps_inv h hi

/-- Settles O3, from the reset values of R250. -/
theorem resetEstablishesInvariant : Obligations.ResetEstablishesInvariant :=
  fun p hp => (inv_iff _).mpr ⟨resetWith_regInv p, resetWith_wtHolds p, hp⟩

end Sys2Proof.Machine
end

section
/-! PROOFS. A command writes only the registers R23 lists it against (O18). -/

namespace Sys2Proof.Machine

open Sys2Proof

section
variable {s t : State} {i : Instr} {reg : Reg}

/-! ### What RDREG reads after each write -/

theorem readReg_respond (status : Status) (result : Result) (s : State) :
    readReg (respond status result s) reg = readReg s reg := by
  cases reg <;> rfl

theorem readReg_withLfsr16 (s : State) (r : BitVec 16) (h : reg ≠ .lfsr16) :
    readReg (s.withLfsr16 r) reg = readReg s reg := by
  revert h; cases reg <;> simp [readReg]

theorem readReg_withLfsr32 (s : State) (r : BitVec 32) (h : reg ≠ .lfsr32) :
    readReg (s.withLfsr32 r) reg = readReg s reg := by
  revert h; cases reg <;> simp [readReg]

theorem readReg_withFault (s : State) (f : FaultRegs) (hc : reg ≠ .faultCause) (hi : reg ≠ .faultInfo) :
    readReg (s.withFault f) reg = readReg s reg := by
  revert hc hi; cases reg <;> simp [readReg]

theorem readReg_afterRead (s : State) (a : Nat) : readReg (afterRead s a) reg = readReg s reg := by
  cases reg <;> rfl

/-- For each write and each register: R23 lists the one against the other, or the register's field stays. -/
theorem OscWrite.readReg_of_unlisted {o : OscRegs} (hw : OscWrite s.osc i o)
    (hn : i.mnemonic ∉ writersOf reg) : readReg (s.withOsc o) reg = readReg s reg := by
  revert hn
  cases hw <;> cases reg <;> simp [Instr.mnemonic, writersOf, readReg, oscCtrlWord]

theorem FltWrite.readReg_of_unlisted {f : FltRegs} (hw : FltWrite s.flt i f)
    (hn : i.mnemonic ∉ writersOf reg) : readReg (s.withFlt f) reg = readReg s reg := by
  revert hn
  cases hw <;> cases reg <;> simp [Instr.mnemonic, writersOf, readReg, FltRegs.notch]

/-- A tick writes the phase, the index, RUNNING and no other register of the oscillator (R152). -/
theorem readReg_withOsc_tick (s : State) (r : Bool) (p : BitVec 32) (k : BitVec 16)
    (hn : Mnemonic.oscTick ∉ writersOf reg) :
    readReg (s.withOsc { s.osc with running := r, phase := p, index := k }) reg = readReg s reg := by
  revert hn
  cases reg <;> simp [writersOf, readReg]

theorem RegWrite.readReg_of_unlisted (hw : RegWrite s i t) (hn : i.mnemonic ∉ writersOf reg) :
    readReg t reg = readReg s reg := by
  cases hw with
  | osc ho => rw [readReg_respond, ho.readReg_of_unlisted hn]
  | flt _ hf => rw [readReg_respond, hf.readReg_of_unlisted hn]
  | lfsr16Next => rw [readReg_respond, readReg_withLfsr16]; rintro rfl; exact hn (by decide)
  | lfsr32Next => rw [readReg_respond, readReg_withLfsr32]; rintro rfl; exact hn (by decide)
  | noiseTick => rw [readReg_respond, readReg_withLfsr32]; rintro rfl; exact hn (by decide)
  | tickFault c n =>
    rw [raiseFault, readReg_respond, readReg_withFault]
    · rintro rfl; exact hn (by decide)
    · rintro rfl; exact hn (by decide)
  | tickSample p =>
    rw [lookupDone, readReg_respond]
    exact (readReg_withOsc_tick (afterRead s _) s.osc.running _ _ hn).trans (readReg_afterRead ..)
  | tickEnd =>
    rw [oneShotEnd, readReg_respond]
    exact readReg_withOsc_tick s false _ s.osc.index hn

/-! ### The two flags of OSC_CTRL -/

/-- RUNNING's own list (spec/10_state.md R26). -/
theorem RegWrite.running_listed (hw : RegWrite s i t) (hne : t.osc.running ≠ s.osc.running) :
    i.mnemonic ∈ [Mnemonic.oscStart, .oscStop, .oscResetStart, .oscStopReset, .oscTick] := by
  revert hne
  cases hw with
  | osc ho => cases ho <;> simp [Instr.mnemonic]
  | tickFault | tickSample | tickEnd => simp [Instr.mnemonic]
  | flt | lfsr16Next | lfsr32Next | noiseTick => exact fun hne => absurd rfl hne

/-- REPEAT's own list (spec/10_state.md R27). -/
theorem RegWrite.looping_listed (hw : RegWrite s i t) (hne : t.osc.looping ≠ s.osc.looping) :
    i.mnemonic = .oscSetRepeat := by
  revert hne
  cases hw with
  | osc ho => cases ho <;> simp [Instr.mnemonic]
  | flt | lfsr16Next | lfsr32Next | noiseTick | tickFault | tickSample | tickEnd =>
    exact fun hne => absurd rfl hne

end

/-- Settles O18: a command that only answers writes no register, and every other writes what `RegWrite` says. -/
theorem onlyListedCommandsWrite : Obligations.OnlyListedCommandsWrite := by
  intro i s t h
  rcases exec_cases h with ⟨status, result, rfl⟩ | ⟨-, hw⟩
  · exact ⟨fun _ _ => readReg_respond .., fun hne => absurd rfl hne, fun hne => absurd rfl hne⟩
  · exact ⟨fun _ => hw.readReg_of_unlisted, hw.running_listed, hw.looping_listed⟩

end Sys2Proof.Machine
end

section
/-! PROOFS. The wavetable memory: no command writes it (O19), only OSC_TICK reads it (O20), a host write changes the
one entry (O22) and stops at an absent one (O23), and a read that a host write overlaps is free (O38). -/

namespace Sys2Proof.Machine

open Sys2Proof

/-! ### Commands and WT (spec/20_memory.md R60) -/

section
variable {s t u u' : State} {i : Instr}

theorem exec_frame (h : exec i s = .next t) :
    t.wt = s.wt ∧ t.params = s.params ∧ t.host = s.host ∧ t.overlap = s.overlap := by
  rcases exec_cases h with ha | ⟨-, hw⟩
  · exact ha.frame
  · exact hw.frame

/-- RDREG reads registers only. -/
@[simp] theorem readReg_withWt (s : State) (m : Memory) (reg : Reg) :
    readReg (s.withWt m) reg = readReg s reg := by
  cases reg <;> rfl

/-- WT does not enter whether a block is faulted, so effects that agree up to WT are answered alike. -/
theorem whenLive_withWt {m : Memory} (hu : u' = u.withWt m) :
    ∃ t, whenLive s u = .next t ∧ whenLive (s.withWt m) u' = .next (t.withWt m) := by
  subst hu
  by_cases hc : s.fault.cause = 0#4
  · exact ⟨u, whenLive_live u hc, whenLive_live _ hc⟩
  · exact ⟨answerFaulted s, whenLive_faulted u hc, whenLive_faulted _ hc⟩

/-- A setter of a sample rate refuses rate 0 whatever WT holds. -/
theorem reject_ite_withWt {m : Memory} {r : MilliHertz} (hu : u' = u.withWt m) :
    (if r = 0#32 then reject (s.withWt m) else u') = (if r = 0#32 then reject s else u).withWt m := by
  subst hu
  split <;> rfl

theorem execRdreg_withWt (r : BitVec 8) (s : State) (m : Memory) :
    ∃ t, execRdreg r s = .next t ∧ execRdreg r (s.withWt m) = .next (t.withWt m) := by
  cases hr : Reg.ofNumber r with
  | some reg =>
    refine ⟨respond .ok (readReg s reg) s, by simp [execRdreg, hr], ?_⟩
    simp only [execRdreg, hr, readReg_withWt]
    rfl
  | none =>
    simp only [execRdreg, hr]
    exact whenLive_withWt rfl

/-- Every command but OSC_TICK answers, and commutes with a change of WT. -/
theorem exec_withWt (s : State) (m : Memory) (hi : i ≠ .oscTick) :
    ∃ t, exec i s = .next t ∧ exec i (s.withWt m) = .next (t.withWt m) := by
  cases i with
  | oscTick => exact absurd rfl hi
  | rdreg r => exact execRdreg_withWt r s m
  | oscSetRate r | fltSetRate r => exact whenLive_withWt (reject_ite_withWt rfl)
  | sadd | smul | snmul | sclip | lfsr16Next | lfsr32Next | noiseTick => exact whenLive_withWt rfl
  | oscStart | oscStop | oscReset | oscResetStart | oscStopReset => exact whenLive_withWt rfl
  | oscSetFreq | oscGetRate | oscSetTable | oscSetRepeat => exact whenLive_withWt rfl
  | fltTick | fltSetFreq | fltSetRes | fltGetRate => exact whenLive_withWt rfl

end

/-! ### Host writes between commands (spec/20_memory.md R60, R62) -/

section
variable {s : State} {w : WtWrite}

/-- An entry's bits 7:0 lie at its even byte offset. -/
@[simp] theorem byte_setEntry_low (m : Memory) (a : Nat) (v : Sample) :
    (m.setEntry a v).byte (2 * a) = v.extractLsb' 0 8 := by
  have hne : 2 * a ≠ 2 * a + 1 := by omega
  exact (byte_set_other _ _ hne).trans (byte_set_same ..)

/-- An entry's bits 15:8 lie at its odd byte offset. -/
@[simp] theorem byte_setEntry_high (m : Memory) (a : Nat) (v : Sample) :
    (m.setEntry a v).byte (2 * a + 1) = v.extractLsb' 8 8 :=
  byte_set_same ..

theorem step_writeWt (s : State) (w : WtWrite) (rest : List HostEvent) :
    step { s with host := .writeWt w :: rest } = landWrites [w] { s with host := rest } := rfl

theorem landWrites_singleton (h : w.addr.toNat < s.params.wtSize) :
    landWrites [w] s = .next (s.withWt (s.wt.setEntry w.addr.toNat w.value)) := by
  simp [landWrites, entryExists, h]

theorem landWrites_absent (rest : List WtWrite) (h : s.params.wtSize ≤ w.addr.toNat) :
    landWrites (w :: rest) s = .fault .wtEntryAbsent := by
  simp [landWrites, entryExists, h]

end

/-! ### The tick's lookup and its read (spec/43_oscillator.md R152, spec/20_memory.md R67) -/

section
variable {s : State} {p a : Nat}

/-- A Running oscillator looks up the phase it advances to, wrapped once when it is Looping. -/
theorem oscTick_eq_lookup (hr : s.osc.running = true)
    (hp : (advancedPhase s.osc < Config.phiMax ∧ p = advancedPhase s.osc) ∨
      (s.osc.looping = true ∧ p + Config.phiMax = advancedPhase s.osc)) :
    oscTick s = lookup p s := by
  rcases hp with ⟨hlt, rfl⟩ | ⟨hl, hadv⟩
  · simp [oscTick, hr, hlt]
  · simp [oscTick, hr, hl, ← hadv]

theorem lookup_eq_lookupDone (hi : tableIndex s.osc p < s.osc.tlen.toNat)
    (ha : tableAddr s.osc p < s.params.wtSize) : lookup p s = lookupDone p s := by
  rcases lookup_cases p s with ⟨hi', -⟩ | ⟨-, ha', -⟩ | ⟨-, -, h⟩
  · omega
  · omega
  · exact h

theorem readOverlaps_iff : readOverlaps s a = true ↔ ∃ w ∈ s.overlap, w.addr.toNat = a := by
  simp [readOverlaps]

theorem memRead_overlapped (h : readOverlaps s a = true) : memRead s a = Config.freeSample s.draws := by
  simp [memRead, h]

theorem afterRead_overlapped (h : readOverlaps s a = true) :
    afterRead s a = { s with draws := s.draws + 1 } := by
  simp [afterRead, h]

end

/-! ### The obligations -/

/-- Settles O38: the tick is a lookup that finds its entry, whose read takes one draw. -/
theorem overlappedReadIsFree : Obligations.OverlappedReadIsFree := by
  rintro s p _ _ hlive hr hp rfl rfl hi ha hw
  have hover : readOverlaps s (tableAddr s.osc p) = true := readOverlaps_iff.mpr hw
  calc exec .oscTick s
      = .next (oscTick s) := whenLive_live _ hlive
    _ = .next (lookupDone p s) := by rw [oscTick_eq_lookup hr hp, lookup_eq_lookupDone hi ha]
    _ = _ := by rw [lookupDone, memRead_overlapped hover, afterRead_overlapped hover]; rfl

/-- Settles O19: every command only answers or writes registers. -/
theorem commandsLeaveWtAlone : Obligations.CommandsLeaveWtAlone := by
  intro i s t h
  obtain ⟨hwt, hparams, hhost, hoverlap⟩ := exec_frame h
  exact ⟨hwt, fun a => by rw [hwt], hparams, hhost, hoverlap⟩

/-- Settles O20: each command's effect, OSC_TICK's aside, commutes with a change of WT. -/
theorem onlyTickReadsWt : Obligations.OnlyTickReadsWt :=
  fun _ s m hi => exec_withWt s m hi

/-- Settles O22: the new memory is the old one with the entry set. -/
theorem hostWriteChangesOneEntry : Obligations.HostWriteChangesOneEntry := by
  intro s w rest hin
  refine ⟨s.wt.setEntry w.addr.toNat w.value, ?_, entry_setEntry_same .., byte_setEntry_low ..,
    byte_setEntry_high .., fun _ => entry_setEntry_other _ _, fun _ => byte_setEntry_other _ _, setEntry_wf _ _⟩
  rw [step_writeWt]
  exact landWrites_singleton hin

/-- Settles O23: `landWrites` stops at the absent entry. -/
theorem absentEntryWriteStops : Obligations.AbsentEntryWriteStops := by
  intro s w rest hout
  rw [step_writeWt]
  exact landWrites_absent [] hout

end Sys2Proof.Machine
end

section
/-! PROOFS. The decoder answers each word as the opcode map says (O7, O8), and it and the encoder are inverse to each
other (O5, O6, O9): spec/30_encoding.md. -/

namespace Sys2Proof

/-! ### The words of a mnemonic -/

/-- The decoder reads a command of `m` from `w`: none of the four cases of R84 applies. -/
structure IsWordOf (m : Mnemonic) (w : Command) : Prop where
  op       : m.op = opField w
  rsv      : rsvField w = 0#8
  unused   : w &&& m.form.unusedMask = 0#64
  register : namesRegister m w = true

theorem op_injective {m m' : Mnemonic} (h : m.op = m'.op) : m = m' := by
  have hsome : some m = some m' := by rw [← ofOp_op m, ← ofOp_op m', h]
  exact Option.some.inj hsome

/-- A word is a command of at most one mnemonic, that of its opcode. -/
theorem IsWordOf.eq_of_op {m m' : Mnemonic} {w : Command} (h : IsWordOf m w) (hop : m'.op = opField w) :
    m' = m :=
  op_injective (hop.trans h.op.symm)

theorem namesRegister_iff (m : Mnemonic) (w : Command) :
    namesRegister m w = true ↔ (m = .rdreg → legalRegNumber (w.extractLsb' 0 8) = true) := by
  cases m with
  | rdreg => simp [namesRegister, ofNumber_isSome, regOperand]
  | _ => simp [namesRegister]

/-! ### Everything the decoder can answer (R84, R85) -/

theorem IsWordOf.decode_eq {m : Mnemonic} {w : Command} (h : IsWordOf m w) :
    decode w = .legal (assembleOperands m w) := by
  simp [decode, ← h.op, h.rsv, h.unused, h.register]

theorem isWordOf_of_decode {w : Command} {i : Instr} (h : decode w = .legal i) :
    ∃ m, IsWordOf m w ∧ assembleOperands m w = i := by
  unfold decode at h
  split at h
  · cases h
  next m hm =>
    split_ifs at h with hrsv hunused hreg
    cases h
    exact ⟨m, ⟨op_of_ofOp hm, not_not.mp hrsv, not_not.mp hunused, hreg⟩, rfl⟩

@[simp] theorem mnemonic_assembleOperands (m : Mnemonic) (w : Command) :
    (assembleOperands m w).mnemonic = m := by cases m <;> rfl

theorem decode_legal_iff (w : Command) (m : Mnemonic) :
    (∃ i, decode w = .legal i ∧ i.mnemonic = m) ↔ IsWordOf m w := by
  constructor
  · rintro ⟨i, hi, rfl⟩
    obtain ⟨m, hm, rfl⟩ := isWordOf_of_decode hi
    rwa [mnemonic_assembleOperands]
  · exact fun hm => ⟨_, hm.decode_eq, mnemonic_assembleOperands m w⟩

/-- The illegal words are those of no mnemonic. -/
theorem decode_illegal_iff (w : Command) : (∃ why, decode w = .illegal why) ↔ ∀ m, ¬ IsWordOf m w := by
  constructor
  · rintro ⟨why, hwhy⟩ m hm
    rw [hm.decode_eq] at hwhy
    cases hwhy
  · intro hnone
    cases hd : decode w with
    | illegal why => exact ⟨why, rfl⟩
    | legal i =>
      obtain ⟨m, hm, -⟩ := isWordOf_of_decode hd
      exact absurd hm (hnone m)

/-! ### Decoding what was encoded -/

theorem encode_and_unusedMask (i : Instr) : encode i &&& i.mnemonic.form.unusedMask = 0#64 := by
  cases i with
  | sadd a b => exact Laws.UnusedBitsZero.sadd a b
  | smul a b => exact Laws.UnusedBitsZero.smul a b
  | snmul a b => exact Laws.UnusedBitsZero.snmul a b
  | sclip a => exact Laws.UnusedBitsZero.sclip a
  | lfsr16Next => exact Laws.UnusedBitsZero.lfsr16Next
  | lfsr32Next => exact Laws.UnusedBitsZero.lfsr32Next
  | noiseTick => exact Laws.UnusedBitsZero.noiseTick
  | oscTick => exact Laws.UnusedBitsZero.oscTick
  | oscStart => exact Laws.UnusedBitsZero.oscStart
  | oscStop => exact Laws.UnusedBitsZero.oscStop
  | oscReset => exact Laws.UnusedBitsZero.oscReset
  | oscResetStart => exact Laws.UnusedBitsZero.oscResetStart
  | oscStopReset => exact Laws.UnusedBitsZero.oscStopReset
  | oscSetFreq f => exact Laws.UnusedBitsZero.oscSetFreq f
  | oscSetRate r => exact Laws.UnusedBitsZero.oscSetRate r
  | oscGetRate => exact Laws.UnusedBitsZero.oscGetRate
  | oscSetTable base len => exact Laws.UnusedBitsZero.oscSetTable base len
  | oscSetRepeat f => exact Laws.UnusedBitsZero.oscSetRepeat f
  | fltTick x => exact Laws.UnusedBitsZero.fltTick x
  | fltSetFreq f => exact Laws.UnusedBitsZero.fltSetFreq f
  | fltSetRes r => exact Laws.UnusedBitsZero.fltSetRes r
  | fltSetRate r => exact Laws.UnusedBitsZero.fltSetRate r
  | fltGetRate => exact Laws.UnusedBitsZero.fltGetRate
  | rdreg r => exact Laws.UnusedBitsZero.rdreg r

/-- The one check of well-formedness is the one check of the decoder on a register number (R84 case 4). -/
theorem namesRegister_encode (i : Instr) : namesRegister i.mnemonic (encode i) = i.wf := by
  cases i with
  | rdreg r => simp [namesRegister, Instr.mnemonic, encode, Instr.aBits, ofNumber_isSome, Instr.wf]
  | _ => rfl

/-- Each operand is read from the bits it was written to (R82). -/
theorem assembleOperands_encode (i : Instr) : assembleOperands i.mnemonic (encode i) = i := by
  cases i <;> simp [Instr.mnemonic, assembleOperands, encode, Instr.aBits, Instr.bBits]

theorem encode_isWordOf {i : Instr} (h : i.wf = true) : IsWordOf i.mnemonic (encode i) where
  op := (opField_commandWord ..).symm
  rsv := rsvField_commandWord ..
  unused := encode_and_unusedMask i
  register := (namesRegister_encode i).trans h

theorem decode_encode {i : Instr} (h : i.wf = true) : decode (encode i) = .legal i := by
  rw [(encode_isWordOf h).decode_eq, assembleOperands_encode]

/-! ### Encoding what was decoded -/

/-- Field `B` of a word of a form, from the operand it carries (R82). -/
def Form.bBits : Form → Command → BitVec 16
  | .tbl, w => bField w
  | _, _ => 0#16

/-- Field `A` of a word of a form, from the operands it carries (R82). -/
def Form.aBits : Form → Command → BitVec 32
  | .noOperand, _ => 0#32
  | .ss, w => sampleHi w ++ sampleLo w
  | .s, w => 0#16 ++ sampleLo w
  | .u32, w => aField w
  | .tbl, w => aField w
  | .bit, w => 0#31 ++ BitVec.ofBool (flagOperand w)
  | .reg, w => 0#24 ++ regOperand w

theorem bBits_assembleOperands (m : Mnemonic) (w : Command) :
    (assembleOperands m w).bBits = m.form.bBits w := by cases m <;> rfl

theorem aBits_assembleOperands (m : Mnemonic) (w : Command) :
    (assembleOperands m w).aBits = m.form.aBits w := by cases m <;> rfl

/-- Bits that a mask covers are 0 in a word that has none of the mask's bits. -/
theorem extractLsb'_eq_zero {w mask : Command} {k n : Nat} (hmask : mask.extractLsb' k n = BitVec.allOnes n)
    (h : w &&& mask = 0#64) : w.extractLsb' k n = 0#n := by
  calc w.extractLsb' k n
      = w.extractLsb' k n &&& mask.extractLsb' k n := by rw [hmask, BitVec.and_allOnes]
    _ = (w &&& mask).extractLsb' k n := BitVec.extractLsb'_and.symm
    _ = 0#n := by rw [h, BitVec.extractLsb'_zero]

/-- Low bits with zeros put above them, where the word has zeros above them. -/
theorem zero_append_low {w : Command} {k n : Nat} (h : w.extractLsb' k n = 0#n) :
    0#n ++ w.extractLsb' 0 k = w.extractLsb' 0 (n + k) := by
  rw [← h]
  exact BitVec.extractLsb'_append_extractLsb'_eq_extractLsb' (Nat.zero_add k).symm

/-- Only form `tbl` uses `B`. -/
theorem Form.bBits_eq_bField {f : Form} {w : Command} (h : w &&& f.unusedMask = 0#64) :
    f.bBits w = bField w := by
  cases f with
  | tbl => rfl
  | _ => exact (extractLsb'_eq_zero (by decide) h).symm

/-- The operands are all of `A` when the bits their form does not use are 0. -/
theorem Form.aBits_eq_aField {f : Form} {w : Command} (h : w &&& f.unusedMask = 0#64) :
    f.aBits w = aField w := by
  cases f with
  | noOperand => exact (extractLsb'_eq_zero (by decide) h).symm
  | ss => exact BitVec.extractLsb'_append_extractLsb'_eq_extractLsb' rfl
  | s => exact zero_append_low (extractLsb'_eq_zero (by decide) h)
  | u32 | tbl => rfl
  | bit =>
    have hflag : BitVec.ofBool (flagOperand w) = w.extractLsb' 0 1 := by
      apply BitVec.eq_of_getLsbD_eq; intro j hj
      obtain rfl : j = 0 := by omega
      simp [flagOperand]
    rw [Form.aBits, hflag]
    exact zero_append_low (extractLsb'_eq_zero (by decide) h)
  | reg => exact zero_append_low (extractLsb'_eq_zero (by decide) h)

/-- The word is put together again from the operands read from it. -/
theorem IsWordOf.encode_assembleOperands {m : Mnemonic} {w : Command} (h : IsWordOf m w) :
    encode (assembleOperands m w) = w := by
  rw [encode, mnemonic_assembleOperands, bBits_assembleOperands, aBits_assembleOperands, h.op,
    Form.bBits_eq_bField h.unused, Form.aBits_eq_aField h.unused, commandWord_fields h.rsv]

theorem IsWordOf.wf_assembleOperands {m : Mnemonic} {w : Command} (h : IsWordOf m w) :
    (assembleOperands m w).wf = true := by
  rw [← namesRegister_encode, h.encode_assembleOperands, mnemonic_assembleOperands, h.register]

/-! ### The rows of the opcode map (R83) -/

/-- The row of a mnemonic: its opcode, RSV 0, and 0 in every operand bit its form does not use. -/
def rowOf (m : Mnemonic) : OpcodeRow where
  mnemonic := m
  pattern  := commandWord m.op 0#16 0#32
  mask     := 0xFFFF000000000000#64 ||| m.form.unusedMask

theorem rowOf_pattern (m : Mnemonic) : (rowOf m).pattern = commandWord m.op 0#16 0#32 := rfl

/-- The table of R83 has the row of each mnemonic and no other. -/
theorem opcodeTable_eq : opcodeTable = Mnemonic.all.map rowOf := by decide

theorem mem_opcodeTable_iff (row : OpcodeRow) : row ∈ opcodeTable ↔ ∃ m, rowOf m = row := by
  have hall : ∀ m, m ∈ Mnemonic.all := by intro m; cases m <;> decide
  simp [opcodeTable_eq, hall]

/-- A word is its four fields (R80). -/
theorem eq_iff_fields (w v : Command) :
    w = v ↔ opField w = opField v ∧ rsvField w = rsvField v ∧ bField w = bField v ∧ aField w = aField v := by
  refine ⟨fun h => h ▸ ⟨rfl, rfl, rfl, rfl⟩, fun ⟨hop, hrsv, hb, ha⟩ => ?_⟩
  have happend (u : Command) : opField u ++ rsvField u ++ bField u ++ aField u = u := by
    simp only [opField, rsvField, bField, aField]
    rw [BitVec.extractLsb'_append_extractLsb'_eq_extractLsb' (by decide : 56 = 48 + 8),
      BitVec.extractLsb'_append_extractLsb'_eq_extractLsb' (by decide : 48 = 32 + 16),
      BitVec.extractLsb'_append_extractLsb'_eq_extractLsb' (by decide : 32 = 0 + 32)]
    exact BitVec.extractLsb'_eq_self
  rw [← happend w, ← happend v, hop, hrsv, hb, ha]

section
variable (w v : Command)

theorem opField_and : opField (w &&& v) = opField w &&& opField v := BitVec.extractLsb'_and

theorem rsvField_and : rsvField (w &&& v) = rsvField w &&& rsvField v := BitVec.extractLsb'_and

theorem bField_and : bField (w &&& v) = bField w &&& bField v := BitVec.extractLsb'_and

theorem aField_and : aField (w &&& v) = aField w &&& aField v := BitVec.extractLsb'_and

end

/-- A form leaves unused bits of `B` and `A` only. -/
theorem unusedMask_op_rsv (f : Form) : opField f.unusedMask = 0#8 ∧ rsvField f.unusedMask = 0#8 := by
  cases f <;> decide

/-- The mask of a row: all of `OP` and `RSV`, and the operand bits the form does not use. -/
theorem rowOf_mask_fields (m : Mnemonic) :
    opField (rowOf m).mask = BitVec.allOnes 8 ∧ rsvField (rowOf m).mask = BitVec.allOnes 8 ∧
      bField (rowOf m).mask = bField m.form.unusedMask ∧ aField (rowOf m).mask = aField m.form.unusedMask := by
  cases m <;> decide

theorem and_unusedMask_eq_zero_iff (w : Command) (f : Form) :
    w &&& f.unusedMask = 0#64 ↔
      bField w &&& bField f.unusedMask = 0#16 ∧ aField w &&& aField f.unusedMask = 0#32 := by
  obtain ⟨hop, hrsv⟩ := unusedMask_op_rsv f
  have hzero : opField 0#64 = 0#8 ∧ rsvField 0#64 = 0#8 ∧ bField 0#64 = 0#16 ∧ aField 0#64 = 0#32 := by decide
  rw [eq_iff_fields]
  simp [opField_and, rsvField_and, bField_and, aField_and, hop, hrsv, hzero]

theorem rowOf_selects_iff (m : Mnemonic) (w : Command) :
    w &&& (rowOf m).mask = (rowOf m).pattern ↔
      m.op = opField w ∧ rsvField w = 0#8 ∧ w &&& m.form.unusedMask = 0#64 := by
  obtain ⟨hop, hrsv, hb, ha⟩ := rowOf_mask_fields m
  rw [eq_iff_fields, and_unusedMask_eq_zero_iff]
  simp only [opField_and, rsvField_and, bField_and, aField_and, hop, hrsv, hb, ha, BitVec.and_allOnes,
    rowOf_pattern, opField_commandWord, rsvField_commandWord, bField_commandWord, aField_commandWord,
    eq_comm (a := m.op)]

theorem isWordOf_iff (m : Mnemonic) (w : Command) :
    IsWordOf m w ↔ w &&& (rowOf m).mask = (rowOf m).pattern ∧
      (m = .rdreg → legalRegNumber (w.extractLsb' 0 8) = true) := by
  rw [rowOf_selects_iff, ← namesRegister_iff]
  exact ⟨fun ⟨hop, hrsv, hun, hreg⟩ => ⟨⟨hop, hrsv, hun⟩, hreg⟩,
    fun ⟨⟨hop, hrsv, hun⟩, hreg⟩ => ⟨hop, hrsv, hun, hreg⟩⟩

/-! ### The obligations -/

/-- Settles O5: the word of an instruction is a word of its mnemonic, and the operands are read back. -/
theorem decodeEncodeRoundTrip : Obligations.DecodeEncodeRoundTrip :=
  fun _ h => decode_encode h

/-- Settles O6: with RSV and the unused bits 0, the opcode and the operands are the whole word. -/
theorem encodeDecodeRoundTrip : Obligations.EncodeDecodeRoundTrip := by
  intro w i h
  obtain ⟨m, hm, rfl⟩ := isWordOf_of_decode h
  exact ⟨hm.encode_assembleOperands, hm.wf_assembleOperands⟩

/-- Settles O7: every row is that of its mnemonic, and a row that selects a word has the word's opcode. -/
theorem decoderFollowsOpcodeMap : Obligations.DecoderFollowsOpcodeMap := by
  constructor
  · intro w m
    rw [decode_legal_iff, isWordOf_iff]
    constructor
    · exact fun ⟨hsel, hreg⟩ => ⟨rowOf m, (mem_opcodeTable_iff _).mpr ⟨m, rfl⟩, rfl, hsel, hreg⟩
    · rintro ⟨row, hrow, rfl, hsel, hreg⟩
      obtain ⟨m, rfl⟩ := (mem_opcodeTable_iff row).mp hrow
      exact ⟨hsel, hreg⟩
  · intro w row₁ hrow₁ row₂ hrow₂ hsel₁ hsel₂
    obtain ⟨m₁, rfl⟩ := (mem_opcodeTable_iff row₁).mp hrow₁
    obtain ⟨m₂, rfl⟩ := (mem_opcodeTable_iff row₂).mp hrow₂
    obtain ⟨hop₁, -⟩ := (rowOf_selects_iff m₁ w).mp hsel₁
    obtain ⟨hop₂, -⟩ := (rowOf_selects_iff m₂ w).mp hsel₂
    rw [op_injective (hop₁.trans hop₂.symm)]

/-- Settles O8: a word in none of the four cases is a word of the mnemonic its opcode names, and no word of a
mnemonic is in one of them. -/
theorem illegalInExactlyFourCases : Obligations.IllegalInExactlyFourCases := by
  intro w
  rw [decode_illegal_iff]
  constructor
  · intro hnone
    by_contra hcases
    push Not at hcases
    obtain ⟨⟨m, hop⟩, hrsv, hunused, hreg⟩ := hcases
    refine hnone m ⟨hop, hrsv, hunused m hop, (namesRegister_iff m w).mpr ?_⟩
    rintro rfl
    simpa using hreg hop.symm
  · rintro (hop | hrsv | ⟨m', hop, hunused⟩ | ⟨hop, hreg⟩) m hm
    · exact hop m hm.op
    · exact hrsv hm.rsv
    · obtain rfl := hm.eq_of_op hop
      exact hunused hm.unused
    · have hm' : m = .rdreg := (hm.eq_of_op (m' := .rdreg) hop.symm).symm
      have hlegal := (namesRegister_iff m w).mp hm.register hm'
      simp [hreg] at hlegal

/-- A line that assembles to a well-formed instruction's word: the word decodes to the instruction. -/
theorem worked_encoding {line : String} {w : Command} {i : Instr}
    (hline : Machine.assembleLine line = .word (encode i)) (hword : encode i = w) (hwf : i.wf = true) :
    Machine.assembleLine line = .word w ∧ decode w = .legal i :=
  hword ▸ ⟨hline, decode_encode hwf⟩

/-- Settles O9: each line is read as its instruction, whose word is the row's. -/
theorem workedEncodings : Obligations.WorkedEncodings :=
  ⟨worked_encoding (by decide) (by decide) rfl,
   worked_encoding (by decide) (by decide) rfl,
   worked_encoding (by decide) (by decide) rfl,
   worked_encoding (by decide) (by decide) rfl,
   worked_encoding (by decide) (by decide) rfl,
   worked_encoding (by decide) (by decide) rfl,
   worked_encoding (by decide) (by decide) rfl,
   worked_encoding (by decide) (by decide) rfl,
   worked_encoding (by decide) (by decide) rfl,
   worked_encoding (by decide) (by decide) rfl⟩

end Sys2Proof
end

section
/-! PROOFS. Issuing a word: the step runs the instruction the word decodes to (O10), and every word is answered
(O11). -/

namespace Sys2Proof.Machine

open Sys2Proof

/-! ### The step on a command word -/

section
variable {s : State} {w : Command} {i : Instr}

theorem runWord_legal (h : decode w = .legal i) : runWord w s = exec i s := by
  simp only [runWord, h]

theorem runWord_illegal {why : IllegalReason} (h : decode w = .illegal why) :
    runWord w s = whenLive s (answerIllegal s) := by
  simp only [runWord, h]

theorem step_command (s : State) (w : Command) (ws : List WtWrite) (rest : List HostEvent) :
    step { s with host := .command w ws :: rest } = runCommand w ws { s with host := rest } := rfl

/-- With no overlapping write, the command is all that happens: no command writes `overlap`. -/
theorem runCommand_nil (w : Command) (s : State) : runCommand w [] s = runWord w { s with overlap := [] } := by
  unfold runCommand
  cases h : runWord w { s with overlap := [] } with
  | next t =>
    obtain ⟨-, -, -, hoverlap⟩ := runWord_frame h
    have hnil : t.overlap = [] := hoverlap
    have ht : { t with overlap := [] } = t := by rw [← hnil]
    exact congrArg Host.Outcome.next ht
  | fault r => rfl
  | refused r => rfl

end

/-! ### Responses (spec/30_encoding.md R86, R87) -/

/-- The state holds a response whose RESULT is 0 unless its STATUS is OK. -/
def Answered (t : State) : Prop := ∃ r, t.response = some r ∧ (r.status ≠ .ok → r.result = 0#64)

section
variable {s u : State}

theorem answered_ok (result : Result) (s : State) : Answered (respond .ok result s) :=
  ⟨_, rfl, fun h => absurd rfl h⟩

theorem answered_zero (status : Status) (s : State) : Answered (respond status 0#64 s) :=
  ⟨_, rfl, fun _ => rfl⟩

theorem whenLive_answered (hu : Answered u) : ∃ t, whenLive s u = .next t ∧ Answered t := by
  by_cases hc : s.fault.cause = 0#4
  · exact ⟨u, whenLive_live u hc, hu⟩
  · exact ⟨_, whenLive_faulted u hc, answered_zero ..⟩

/-- A setter of a sample rate answers whether or not it refuses the rate. -/
theorem reject_answered {r : MilliHertz} (hu : Answered u) :
    Answered (if r = 0#32 then reject s else u) := by
  split
  · exact answered_zero ..
  · exact hu

theorem lookup_answered (p : Nat) (s : State) : Answered (lookup p s) := by
  rcases lookup_cases p s with ⟨-, h⟩ | ⟨-, -, h⟩ | ⟨-, -, h⟩
  · exact h ▸ answered_zero ..
  · exact h ▸ answered_zero ..
  · exact h ▸ answered_ok ..

theorem oscTick_answered (s : State) : Answered (oscTick s) := by
  rcases oscTick_cases s with ⟨-, h⟩ | ⟨-, -, h⟩ | ⟨-, -, -, h⟩ | ⟨-, -, -, h⟩
  · exact h ▸ answered_zero ..
  · exact h ▸ lookup_answered ..
  · exact h ▸ lookup_answered ..
  · exact h ▸ answered_zero ..

theorem execRdreg_answered (r : BitVec 8) (s : State) : ∃ t, execRdreg r s = .next t ∧ Answered t := by
  unfold execRdreg
  split
  · exact ⟨_, rfl, answered_ok ..⟩
  · exact whenLive_answered (answered_zero ..)

/-- Every instruction completes with an answer. -/
theorem exec_answered (i : Instr) (s : State) : ∃ t, exec i s = .next t ∧ Answered t := by
  cases i with
  | rdreg r => exact execRdreg_answered r s
  | oscTick => exact whenLive_answered (oscTick_answered s)
  | oscSetRate r | fltSetRate r => exact whenLive_answered (reject_answered (answered_ok ..))
  | sadd | smul | snmul | sclip | lfsr16Next | lfsr32Next | noiseTick => exact whenLive_answered (answered_ok ..)
  | oscStart | oscStop | oscReset | oscResetStart | oscStopReset => exact whenLive_answered (answered_ok ..)
  | oscSetFreq | oscGetRate | oscSetTable | oscSetRepeat => exact whenLive_answered (answered_ok ..)
  | fltTick | fltSetFreq | fltSetRes | fltGetRate => exact whenLive_answered (answered_ok ..)

theorem runWord_answered (w : Command) (s : State) : ∃ t, runWord w s = .next t ∧ Answered t := by
  cases hd : decode w with
  | legal i => rw [runWord_legal hd]; exact exec_answered i s
  | illegal why => rw [runWord_illegal hd]; exact whenLive_answered (answered_zero ..)

end

/-! ### The obligations -/

/-- Settles O11: legal words are answered by their instruction, illegal ones by ILLEGAL or FAULT. -/
theorem everyWordAnswered : Obligations.EveryWordAnswered := by
  intro w s
  obtain ⟨t, ht, r, hr, hzero⟩ := runWord_answered w s
  exact ⟨t, r, ht, hr, hzero⟩

/-- Settles O10: the step takes the event and runs the word, and the word runs its instruction. -/
theorem stepRunsDecodedInstruction : Obligations.StepRunsDecodedInstruction := by
  intro s w i rest hd
  constructor
  · rw [step_command, runCommand_nil, runWord_legal hd]
  · intro ws
    rw [← runWord_legal hd]
    rfl

end Sys2Proof.Machine
end

section
/-! PROOFS. Sample arithmetic (spec/41_sample_arith.md): what each Sample command answers (O25, O26, O27, O29), that it
answers the same in every live block (O30), and where the normalized product needs the clamp (O28). -/

namespace Sys2Proof.Machine

open Sys2Proof

/-! ### What a live block answers -/

section
variable {s : State} (h : s.fault.cause = 0#4) (a b : Sample)
include h

theorem exec_sadd_live :
    exec (.sadd a b) s = .next (respond .ok (sampleResult (clamp16 (sext16 a + sext16 b))) s) :=
  whenLive_live _ h

theorem exec_smul_live :
    exec (.smul a b) s = .next (respond .ok (sampleResult (clamp16 (sext16 a * sext16 b))) s) :=
  whenLive_live _ h

theorem exec_snmul_live :
    exec (.snmul a b) s =
      .next (respond .ok (sampleResult (clamp16 (normalizedProduct .towardZero (sext16 a) (sext16 b)))) s) :=
  whenLive_live _ h

theorem exec_sclip_live : exec (.sclip a) s = .next (respond .ok (flagResult (isClipped (sext16 a))) s) :=
  whenLive_live _ h

end

/-! ### The clipping predicate (R113) -/

theorem sext16_inj {a b : Sample} : sext16 a = sext16 b ↔ a = b := BitVec.toInt_inj

theorem sampleMin_eq : Config.sampleMin = sext16 0x8000#16 := by decide

theorem sampleMax_eq : Config.sampleMax = sext16 0x7FFF#16 := by decide

theorem isClipped_iff (a : Sample) : isClipped (sext16 a) = true ↔ a = 0x8000#16 ∨ a = 0x7FFF#16 := by
  simp [isClipped, sampleMin_eq, sampleMax_eq, sext16_inj]

theorem flagResult_eq_ite (b : Bool) : flagResult b = if b = true then 1#64 else 0#64 := by
  cases b <;> rfl

/-! ### The normalized product (R112) -/

theorem normalizedProduct_towardZero (a b : Int) :
    normalizedProduct .towardZero a b = (a * b).tdiv 32768 :=
  divn_towardZero ..

/-- Division toward zero divides the magnitudes. -/
theorem natAbs_normalizedProduct (a b : Int) :
    (normalizedProduct .towardZero a b).natAbs = a.natAbs * b.natAbs / 32768 := by
  rw [normalizedProduct_towardZero, Int.natAbs_tdiv, Int.natAbs_mul]
  rfl

theorem natAbs_sext16_le (a : Sample) : (sext16 a).natAbs ≤ 32768 := by
  have := sext16_bounds a
  omega

/-- Only the least Sample has a magnitude of 32768. -/
theorem natAbs_sext16_le_of_ne {a : Sample} (h : a ≠ 0x8000#16) : (sext16 a).natAbs ≤ 32767 := by
  have hne : sext16 a ≠ -32768 := fun heq => h (sext16_inj.mp (heq.trans sampleMin_eq))
  have := sext16_bounds a
  omega

theorem natAbs_normalizedProduct_le {a b : Sample} (h : ¬ (a = 0x8000#16 ∧ b = 0x8000#16)) :
    (normalizedProduct .towardZero (sext16 a) (sext16 b)).natAbs ≤ 32767 := by
  rw [natAbs_normalizedProduct]
  apply Nat.div_le_of_le_mul
  rcases not_and_or.mp h with ha | hb
  · calc (sext16 a).natAbs * (sext16 b).natAbs
        ≤ 32767 * 32768 := Nat.mul_le_mul (natAbs_sext16_le_of_ne ha) (natAbs_sext16_le b)
      _ = 32768 * 32767 := rfl
  · exact Nat.mul_le_mul (natAbs_sext16_le a) (natAbs_sext16_le_of_ne hb)

/-- `x * 32767 = x * 32768 - x`, and the `x` taken away costs one unit of the quotient. -/
theorem normalizedProduct_max {x : Int} (hpos : 0 < x) (hle : x ≤ 32767) :
    normalizedProduct .towardZero x 32767 = x - 1 := by
  have hdiv : normalizedProduct .towardZero x 32767 = x * 32767 / 32768 := divn_nonneg _ _ (by omega)
  omega

theorem normalizedProduct_min (x : Int) : normalizedProduct .towardZero x (-32768) = -x := by
  rw [normalizedProduct_towardZero, Int.mul_neg, ← Int.neg_mul, Int.mul_tdiv_cancel _ (by decide)]

/-! ### The obligations -/

/-- Settles O28: away from -32768 by -32768 the magnitudes multiply to at most 32767 * 32768. -/
theorem snmulCornerCases : Obligations.SnmulCornerCases := by
  refine ⟨fun a b hne => ?_, normalizedProduct_min _, fun _ => normalizedProduct_max, normalizedProduct_min⟩
  have hle : (normalizedProduct .towardZero a.toInt b.toInt).natAbs ≤ 32767 := natAbs_normalizedProduct_le hne
  omega

/-- Settles O30: the answer of each command is made of its operands alone. -/
theorem sampleCommandsArePure : Obligations.SampleCommandsArePure := by
  intro i hi
  cases i with
  | sadd a b => exact ⟨_, fun _ hlive => exec_sadd_live hlive a b⟩
  | smul a b => exact ⟨_, fun _ hlive => exec_smul_live hlive a b⟩
  | snmul a b => exact ⟨_, fun _ hlive => exec_snmul_live hlive a b⟩
  | sclip a => exact ⟨_, fun _ hlive => exec_sclip_live hlive a⟩
  | _ => simp [Instr.mnemonic] at hi

/-- Settles O25: the word is SADD's encoding, and the answer the clamped sum. -/
theorem saddSaturates : Obligations.SaddSaturates :=
  fun a b _ => ⟨decode_encode (i := .sadd a b) rfl, fun hlive => exec_sadd_live hlive a b⟩

/-- Settles O26: the word is SMUL's encoding, and the answer the clamped product. -/
theorem smulSaturates : Obligations.SmulSaturates :=
  fun a b _ => ⟨decode_encode (i := .smul a b) rfl, fun hlive => exec_smul_live hlive a b⟩

/-- Settles O27: the normalized product is the truncating quotient. -/
theorem snmulNormalizes : Obligations.SnmulNormalizes := by
  refine fun a b s => ⟨decode_encode (i := .snmul a b) rfl, fun hlive => ?_⟩
  rw [exec_snmul_live hlive, normalizedProduct_towardZero]
  rfl

/-- Settles O29: the predicate's flag is 1 at the two extremes only. -/
theorem sclipOnlyAtExtremes : Obligations.SclipOnlyAtExtremes := by
  refine fun a s => ⟨decode_encode (i := .sclip a) rfl, fun hlive => ?_⟩
  rw [exec_sclip_live hlive, flagResult_eq_ite]
  simp only [isClipped_iff]
  rfl

end Sys2Proof.Machine
end

section
/-! PROOFS. The LFSRs and the white-noise source (spec/42_lfsr_noise.md): what LFSR16_NEXT, LFSR32_NEXT and
NOISE_TICK do to a live block (O31, O32, O33), and the full periods of the two registers (O35, O36). -/

namespace Sys2Proof.Machine

open Sys2Proof

/-! ### What a live block answers (R132 to R134) -/

section
variable {s : State} (h : s.fault.cause = 0#4)
include h

theorem exec_lfsr16Next_live :
    exec .lfsr16Next s =
      .next (respond .ok (zext64 (nextLfsr16 s.lfsr16)) (s.withLfsr16 (nextLfsr16 s.lfsr16))) :=
  whenLive_live _ h

theorem exec_lfsr32Next_live :
    exec .lfsr32Next s =
      .next (respond .ok (zext64 (nextLfsr32 s.lfsr32)) (s.withLfsr32 (nextLfsr32 s.lfsr32))) :=
  whenLive_live _ h

theorem exec_noiseTick_live :
    exec .noiseTick s =
      .next (respond .ok (sampleResult (noiseSample (nextLfsr32 s.lfsr32)))
        (s.withLfsr32 (nextLfsr32 s.lfsr32))) :=
  whenLive_live _ h

end

/-- With the sign bit `b` above the low 15 bits `y`, both sides are `b` above the complement of `y` (R134). -/
theorem ofInt_sampleMax_sub (x : BitVec 16) :
    BitVec.ofInt 16 (32767 - (x.toNat : Int)) = ~~~ x ^^^ 0x8000#16 := by
  obtain ⟨b, y, rfl⟩ : ∃ (b : Bool) (y : BitVec 15), x = BitVec.cons b y :=
    ⟨x.msb, x.setWidth 15, (BitVec.cons_msb_setWidth x).symm⟩
  have hpattern : ~~~ (BitVec.cons b y) ^^^ 0x8000#16 = BitVec.cons b (~~~ y) := by
    rw [show 0x8000#16 = BitVec.cons true 0#15 from rfl, BitVec.not_cons, BitVec.cons_xor_cons]
    simp
  have hy := y.isLt
  apply BitVec.eq_of_toNat_eq
  rw [hpattern, BitVec.toNat_ofInt, BitVec.toNat_cons', BitVec.toNat_cons', BitVec.toNat_not]
  cases b <;> simp <;> omega

/-! ### A point's period from its prime factors -/

/-- A point that returns after a product of primes, and not after that product with one of them divided out, has
the product as its period: a shorter period would leave out one of the primes. -/
theorem minimalPeriod_eq_prod {α : Type} {f : α → α} {x : α} {ps : List Nat} (hprime : ∀ q ∈ ps, q.Prime)
    (hper : Function.IsPeriodicPt f ps.prod x)
    (hmin : ∀ q ∈ ps, ¬ Function.IsPeriodicPt f (ps.prod / q) x) :
    Function.minimalPeriod f x = ps.prod := by
  obtain ⟨c, hc⟩ := hper.minimalPeriod_dvd
  by_contra hne
  have hc1 : c ≠ 1 := by rintro rfl; exact hne (by rw [hc, Nat.mul_one])
  have hq : c.minFac.Prime := Nat.minFac_prime hc1
  have hmem : c.minFac ∈ ps :=
    mem_list_primes_of_dvd_prod hq.prime (fun q hq => (hprime q hq).prime)
      (hc ▸ (Nat.minFac_dvd c).mul_left _)
  have hdvd : Function.minimalPeriod f x ∣ ps.prod / c.minFac := by
    rw [hc, Nat.mul_div_assoc _ (Nat.minFac_dvd c)]
    exact Nat.dvd_mul_right ..
  exact hmin _ hmem (Function.isPeriodicPt_iff_minimalPeriod_dvd.mpr hdvd)

/-- The period is the first return. -/
theorem iterate_eq_self_first {α : Type} {f : α → α} {x : α} {N : Nat} (h : Function.minimalPeriod f x = N) :
    f^[N] x = x ∧ ∀ k, 0 < k → k < N → f^[k] x ≠ x := by
  subst h
  exact ⟨Function.iterate_minimalPeriod, fun _ hpos hlt =>
    Function.not_isPeriodicPt_of_pos_of_lt_minimalPeriod hpos.ne' hlt⟩

/-! ### Many steps at once

The steps of the top bit are the single bits, so a value is an XOR of them, and any iterate of the step, being
linear, is known from its value at the top bit. -/

section
variable {n : Nat} (m : BitVec n)

/-- The XOR of successive steps of `b`, one for each of the low `i` bits of `v` that is set, highest bit first. -/
def lfsrCombine : Nat → BitVec n → BitVec n → BitVec n
  | 0, _, _ => 0#n
  | i + 1, v, b => (if v.getLsbD i then b else 0#n) ^^^ lfsrCombine i v (lfsrStep b m)

/-- The top bit after `k` steps, for `k` of `d` binary digits, by repeated doubling. -/
def lfsrJump : Nat → Nat → BitVec n
  | 0, _ => BitVec.intMin n
  | d + 1, k =>
    let half := lfsrJump d (k / 2)
    let doubled := lfsrCombine m n half half
    if k % 2 = 1 then lfsrStep doubled m else doubled

theorem lfsrStep_lfsrCombine (i : Nat) (v b : BitVec n) :
    lfsrStep (lfsrCombine m i v b) m = lfsrCombine m i v (lfsrStep b m) := by
  induction i generalizing b with
  | zero => exact lfsrStep_zero m
  | succ i ih => rw [lfsrCombine, lfsrStep_xor, ih, apply_ite (lfsrStep · m), lfsrStep_zero, lfsrCombine]

theorem iterate_lfsrCombine (k i : Nat) (v b : BitVec n) :
    (lfsrStep · m)^[k] (lfsrCombine m i v b) = lfsrCombine m i v ((lfsrStep · m)^[k] b) :=
  (show Function.Commute (lfsrStep · m) (lfsrCombine m i v) from lfsrStep_lfsrCombine m i v).iterate_left k b

/-- A bit above bit 0 moves down by one. -/
theorem lfsrStep_twoPow_succ {i : Nat} (hi : i + 1 < n) :
    lfsrStep (BitVec.twoPow n (i + 1)) m = BitVec.twoPow n i := by
  apply BitVec.eq_of_getLsbD_eq; intro j _
  simp [lfsrStep, BitVec.getLsbD_twoPow, hi, show i < n by omega]
  omega

/-- The low bits of a value are put together again from single bits. -/
theorem getLsbD_lfsrCombine_twoPow {i : Nat} (hi : i ≤ n) (v : BitVec n) (j : Nat) :
    (lfsrCombine m i v (BitVec.twoPow n (i - 1))).getLsbD j = (decide (j < i) && v.getLsbD j) := by
  induction i with
  | zero => simp [lfsrCombine]
  | succ i ih =>
    have hrest : lfsrCombine m i v (lfsrStep (BitVec.twoPow n i) m) =
        lfsrCombine m i v (BitVec.twoPow n (i - 1)) := by
      cases i with
      | zero => rfl
      | succ i => rw [lfsrStep_twoPow_succ m hi, Nat.add_sub_cancel]
    rw [lfsrCombine, Nat.add_sub_cancel, hrest, BitVec.getLsbD_xor, ih (by omega)]
    rcases Nat.lt_trichotomy j i with h | rfl | h
    · cases v.getLsbD i <;> simp [BitVec.getLsbD_twoPow, h, h.ne', Nat.lt_succ_of_lt h]
    · cases v.getLsbD j <;> simp [show j < n by omega]
    · cases v.getLsbD i <;> simp [BitVec.getLsbD_twoPow, h.ne, show ¬ j < i by omega, show ¬ j < i + 1 by omega]

theorem lfsrCombine_intMin (v : BitVec n) : lfsrCombine m n v (BitVec.intMin n) = v := by
  apply BitVec.eq_of_getLsbD_eq; intro j hj
  rw [BitVec.intMin, getLsbD_lfsrCombine_twoPow m le_rfl]
  simp [hj]

/-- Any number of steps of `v`, from as many of the top bit. -/
theorem iterate_eq_lfsrCombine (k : Nat) (v : BitVec n) :
    (lfsrStep · m)^[k] v = lfsrCombine m n v ((lfsrStep · m)^[k] (BitVec.intMin n)) := by
  rw [← iterate_lfsrCombine, lfsrCombine_intMin]

theorem lfsrJump_eq_iterate {d k : Nat} (hk : k < 2 ^ d) :
    lfsrJump m d k = (lfsrStep · m)^[k] (BitVec.intMin n) := by
  induction d generalizing k with
  | zero =>
    obtain rfl : k = 0 := by omega
    rfl
  | succ d ih =>
    have hdoubled : lfsrCombine m n (lfsrJump m d (k / 2)) (lfsrJump m d (k / 2)) =
        (lfsrStep · m)^[k / 2 + k / 2] (BitVec.intMin n) := by
      rw [ih (by omega), ← iterate_eq_lfsrCombine, Function.iterate_add_apply]
    simp only [lfsrJump, hdoubled]
    split
    · rw [← Function.iterate_succ_apply' (lfsrStep · m)]
      congr 1; omega
    · congr 1; omega

/-! ### Full period (R131) -/

/-- The top bit returns first after the product of the primes. -/
theorem minimalPeriod_intMin {d : Nat} {ps : List Nat} (hprime : ∀ q ∈ ps, q.Prime) (hd : ps.prod < 2 ^ d)
    (hper : lfsrJump m d ps.prod = BitVec.intMin n)
    (hmin : ∀ q ∈ ps, lfsrJump m d (ps.prod / q) ≠ BitVec.intMin n) :
    Function.minimalPeriod (lfsrStep · m) (BitVec.intMin n) = ps.prod := by
  refine minimalPeriod_eq_prod hprime ((lfsrJump_eq_iterate m hd).symm.trans hper) fun q hq h => hmin q hq ?_
  rw [lfsrJump_eq_iterate m ((Nat.div_le_self ..).trans_lt hd)]
  exact h

end

section
variable {n : Nat} {m e r v : BitVec n}

theorem iterate_lfsrStep_ne_zero (hm : m.msb = true) (hr : r ≠ 0#n) (k : Nat) : (lfsrStep · m)^[k] r ≠ 0#n :=
  fun h => hr ((lfsrStep_injective hm).iterate k (h.trans (Function.iterate_fixed (lfsrStep_zero m) k).symm))

/-- A non-zero value whose period is `2^n - 1` visits that many non-zero values, so all of them. -/
theorem exists_iterate_eq_of_minimalPeriod (hm : m.msb = true) (he : e ≠ 0#n)
    (hper : Function.minimalPeriod (lfsrStep · m) e = 2 ^ n - 1) (hv : v ≠ 0#n) :
    ∃ k < 2 ^ n - 1, (lfsrStep · m)^[k] e = v := by
  have hmaps : Set.MapsTo ((lfsrStep · m)^[·] e) (Finset.range (2 ^ n - 1)) (Finset.univ.erase (0#n)) :=
    fun k _ => by simpa using iterate_lfsrStep_ne_zero hm he k
  have hinj : Set.InjOn ((lfsrStep · m)^[·] e) (Finset.range (2 ^ n - 1)) := by
    rw [Finset.coe_range, ← hper]
    exact Function.iterate_injOn_Iio_minimalPeriod
  have hcard : (Finset.univ.erase (0#n)).card ≤ (Finset.range (2 ^ n - 1)).card := by
    simp [Finset.card_erase_of_mem, ← FinEnum.card_eq_fintypeCard]
  obtain ⟨k, hk, hkv⟩ := Finset.surjOn_of_injOn_of_card_le _ hmaps hinj hcard (by simpa using hv)
  exact ⟨k, by simpa using hk, hkv⟩

/-- Every non-zero value lies on the one cycle. -/
theorem minimalPeriod_of_ne_zero (hm : m.msb = true) (he : e ≠ 0#n)
    (hper : Function.minimalPeriod (lfsrStep · m) e = 2 ^ n - 1) (hr : r ≠ 0#n) :
    Function.minimalPeriod (lfsrStep · m) r = 2 ^ n - 1 := by
  obtain ⟨k, hk, rfl⟩ := exists_iterate_eq_of_minimalPeriod hm he hper hr
  have hpos : 0 < Function.minimalPeriod (lfsrStep · m) e := by omega
  rw [Function.minimalPeriod_apply_iterate (Function.minimalPeriod_pos_iff_mem_periodicPts.mp hpos), hper]

end

/-- `2^16 - 1 = 3 * 5 * 17 * 257`. -/
theorem minimalPeriod_nextLfsr16 {r : BitVec 16} (hr : r ≠ 0#16) :
    Function.minimalPeriod nextLfsr16 r = 65535 :=
  minimalPeriod_of_ne_zero lfsr16Mask_msb (e := BitVec.intMin 16) (by decide)
    (minimalPeriod_intMin _ (d := 16) (ps := [3, 5, 17, 257]) (by norm_num) (by decide)
      (by decide +kernel) (by decide +kernel)) hr

/-- `2^32 - 1 = 3 * 5 * 17 * 257 * 65537`. -/
theorem minimalPeriod_nextLfsr32 {r : BitVec 32} (hr : r ≠ 0#32) :
    Function.minimalPeriod nextLfsr32 r = 4294967295 :=
  minimalPeriod_of_ne_zero lfsr32Mask_msb (e := BitVec.intMin 32) (by decide)
    (minimalPeriod_intMin _ (d := 32) (ps := [3, 5, 17, 257, 65537]) (by norm_num) (by decide)
      (by decide +kernel) (by decide +kernel)) hr

/-! ### The obligations -/

/-- Settles O33: a live block stores the step and answers the sample taken from it. -/
theorem noiseTickSubtractsLowHalf : Obligations.NoiseTickSubtractsLowHalf := by
  refine ⟨decode_encode (i := .noiseTick) rfl, ?_⟩
  rintro s _ rfl hlive
  exact ⟨exec_noiseTick_live hlive, ofInt_sampleMax_sub _⟩

/-- Settles O35: every non-zero value has the full period, so from each the register visits all of them. -/
theorem lfsr16FullPeriod : Obligations.Lfsr16FullPeriod := by
  intro r hr
  have hper := minimalPeriod_nextLfsr16 hr
  obtain ⟨hreturn, hfirst⟩ := iterate_eq_self_first hper
  exact ⟨hreturn, hfirst, fun v hv => exists_iterate_eq_of_minimalPeriod lfsr16Mask_msb hr hper hv⟩

/-- Settles O36: every non-zero value has the full period. -/
theorem lfsr32FullPeriod : Obligations.Lfsr32FullPeriod :=
  fun _ hr => iterate_eq_self_first (minimalPeriod_nextLfsr32 hr)

/-- Settles O31: the word is LFSR16_NEXT's encoding, and a live block stores and answers the step. -/
theorem lfsr16Advances : Obligations.Lfsr16Advances := by
  refine ⟨decode_encode (i := .lfsr16Next) rfl, ?_⟩
  rintro s _ rfl hlive
  exact exec_lfsr16Next_live hlive

/-- Settles O32: the word is LFSR32_NEXT's encoding, and a live block stores and answers the step. -/
theorem lfsr32Advances : Obligations.Lfsr32Advances := by
  refine ⟨decode_encode (i := .lfsr32Next) rfl, ?_⟩
  rintro s _ rfl hlive
  exact exec_lfsr32Next_live hlive

end Sys2Proof.Machine
end

section
/-! PROOFS. The oscillator's commands other than OSC_TICK (spec/43_oscillator.md R154 to R163): what each does to a live
block (O40 to O45). -/

namespace Sys2Proof.Machine

open Sys2Proof

/-! ### Sequences of commands (spec/70_reset_and_hazards.md R260) -/

section
variable {s t : State}

theorem runSeq_cons_next {i : Instr} (h : exec i s = .next t) (rest : List Instr) :
    runSeq (i :: rest) s = runSeq rest t := by
  simp only [runSeq, h]

theorem runSeq_pair {i j : Instr} {u : State} (hi : exec i s = .next t) (hj : exec j t = .next u) :
    runSeq [i, j] s = .next u := by
  rw [runSeq_cons_next hi, runSeq_cons_next hj]
  rfl

theorem runSeq_append_next {is : List Instr} (h : runSeq is s = .next t) (js : List Instr) :
    runSeq (is ++ js) s = runSeq js t := by
  induction is generalizing s with
  | nil => cases h; rfl
  | cons i is ih =>
    obtain ⟨u, hu, -⟩ := exec_answered i s
    rw [runSeq_cons_next hu] at h
    rw [List.cons_append, runSeq_cons_next hu, ih h]

/-- One more command after `k` of its kind. -/
theorem runSeq_replicate_succ {i : Instr} {k : Nat} (h : runSeq (List.replicate k i) s = .next t) :
    runSeq (List.replicate (k + 1) i) s = exec i t := by
  rw [List.replicate_succ', runSeq_append_next h]
  obtain ⟨u, hu, -⟩ := exec_answered i t
  rw [runSeq_cons_next hu, hu]
  rfl

end

/-! ### What a live block answers -/

section
variable {s : State} (h : s.fault.cause = 0#4)
include h

theorem exec_oscStart_live :
    exec .oscStart s = .next (respond .ok 0#64 (s.withOsc (s.osc.withRunning true))) :=
  whenLive_live _ h

theorem exec_oscStop_live :
    exec .oscStop s = .next (respond .ok 0#64 (s.withOsc (s.osc.withRunning false))) :=
  whenLive_live _ h

theorem exec_oscReset_live :
    exec .oscReset s = .next (respond .ok 0#64 (s.withOsc { s.osc with phase := 0#32 })) :=
  whenLive_live _ h

theorem exec_oscResetStart_live :
    exec .oscResetStart s =
      .next (respond .ok 0#64 (s.withOsc ({ s.osc with phase := 0#32 }.withRunning true))) :=
  whenLive_live _ h

theorem exec_oscStopReset_live :
    exec .oscStopReset s =
      .next (respond .ok 0#64 (s.withOsc ({ s.osc with phase := 0#32 }.withRunning false))) :=
  whenLive_live _ h

theorem exec_oscSetFreq_live (f : MilliHertz) :
    exec (.oscSetFreq f) s = .next (respond .ok 0#64 (s.withOsc (s.osc.withFreq f))) :=
  whenLive_live _ h

/-- Rate 0 is refused (spec/60_exceptions.md R221). -/
theorem exec_oscSetRate_zero : exec (.oscSetRate 0#32) s = .next (reject s) :=
  whenLive_live _ h

theorem exec_oscSetRate_live {r : MilliHertz} (hr : r ≠ 0#32) :
    exec (.oscSetRate r) s = .next (respond .ok 0#64 (s.withOsc (s.osc.withRate r))) := by
  refine (whenLive_live _ h).trans ?_
  rw [if_neg hr]

theorem exec_oscGetRate_live : exec .oscGetRate s = .next (respond .ok (zext64 s.osc.rate) s) :=
  whenLive_live _ h

theorem exec_fltGetRate_live : exec .fltGetRate s = .next (respond .ok (zext64 s.flt.rate) s) :=
  whenLive_live _ h

theorem exec_oscSetTable_live (base : EntryAddr) (len : BitVec 16) :
    exec (.oscSetTable base len) s =
      .next (respond .ok 0#64 (s.withOsc { s.osc with tbase := base, tlen := len })) :=
  whenLive_live _ h

theorem exec_oscSetRepeat_live (f : Bool) :
    exec (.oscSetRepeat f) s = .next (respond .ok 0#64 (s.withOsc (s.osc.withLooping f))) :=
  whenLive_live _ h

end

/-! ### The derived constants fit their registers -/

/-- OSC_ALPHA holds `2^46 // r` (R31, R151). -/
theorem withRate_alpha_toNat (o : OscRegs) (r : MilliHertz) :
    (o.withRate r).alpha.toNat = 70368744177664 / r.toNat :=
  regOfNat_toNat (Nat.lt_of_le_of_lt (alphaOf_le r.toNat) (by decide))

/-- OSC_DELTA holds the increment of the stored frequency at the new rate (R32, R150). -/
theorem withRate_delta_toNat (o : OscRegs) (r : MilliHertz) :
    (o.withRate r).delta.toNat = o.freq.toNat * (70368744177664 / r.toNat) / 67108864 :=
  regOfNat_toNat (scale_lt o.freq.isLt (alphaOf_le r.toNat))

/-- With OSC_ALPHA in its range, OSC_DELTA holds the increment of the new frequency (R32, R159). -/
theorem withFreq_delta_toNat {o : OscRegs} (f : MilliHertz) (ha : o.alpha.toNat ≤ 70368744177664) :
    (o.withFreq f).delta.toNat = f.toNat * o.alpha.toNat / 67108864 :=
  regOfNat_toNat (scale_lt (rate := o.rate.toNat) f.isLt ha)

/-! ### The obligations -/

/-- Settles O40: the words are the encodings, and each command writes RUNNING. -/
theorem startAndStop : Obligations.StartAndStop :=
  ⟨⟨decode_encode (i := .oscStart) rfl, decode_encode (i := .oscStop) rfl⟩,
    fun _ hlive => ⟨exec_oscStart_live hlive, exec_oscStop_live hlive⟩⟩

/-- Settles O41: each composite is its two commands in turn, the second one's response replacing the first's. -/
theorem phaseResets : Obligations.PhaseResets := by
  refine ⟨⟨decode_encode (i := .oscReset) rfl, decode_encode (i := .oscResetStart) rfl,
    decode_encode (i := .oscStopReset) rfl⟩, fun s hlive => ?_⟩
  exact ⟨exec_oscReset_live hlive, exec_oscResetStart_live hlive,
    (exec_oscResetStart_live hlive).trans
      (runSeq_pair (exec_oscReset_live hlive) (exec_oscStart_live hlive)).symm,
    exec_oscStopReset_live hlive,
    (exec_oscStopReset_live hlive).trans
      (runSeq_pair (exec_oscStop_live hlive) (exec_oscReset_live hlive)).symm⟩

/-- Settles O42: the frequency is stored with its increment, which fits when OSC_ALPHA is in range. -/
theorem setFreqDerivesDelta : Obligations.SetFreqDerivesDelta :=
  fun f _ => ⟨decode_encode (i := .oscSetFreq f) rfl, fun hlive => exec_oscSetFreq_live hlive f,
    withFreq_delta_toNat f⟩

/-- Settles O43: rate 0 is refused, and the constants that any other rate gives fit their registers. -/
theorem setRateDerivesAlphaAndDelta : Obligations.SetRateDerivesAlphaAndDelta := by
  refine fun r s => ⟨decode_encode (i := .oscSetRate r) rfl, ?_, fun hlive hr => ?_⟩
  · rintro hlive rfl
    exact exec_oscSetRate_zero hlive
  · exact ⟨_, _, withRate_alpha_toNat s.osc r, withRate_delta_toNat s.osc r, exec_oscSetRate_live hlive hr⟩

/-- Settles O44: the words are the encodings, and each command answers its own rate. -/
theorem getRates : Obligations.GetRates :=
  ⟨⟨decode_encode (i := .oscGetRate) rfl, decode_encode (i := .fltGetRate) rfl⟩,
    fun _ hlive => ⟨exec_oscGetRate_live hlive, exec_fltGetRate_live hlive⟩⟩

/-- Settles O45: the words are the encodings, and the operands are stored as they are. -/
theorem setTableAndRepeat : Obligations.SetTableAndRepeat :=
  fun base len f _ => ⟨decode_encode (i := .oscSetTable base len) rfl, decode_encode (i := .oscSetRepeat f) rfl,
    fun hlive => ⟨exec_oscSetTable_live hlive base len, exec_oscSetRepeat_live hlive f⟩⟩

end Sys2Proof.Machine
end

section
/-! PROOFS. The oscillator's tick (spec/43_oscillator.md R152, R153): what one tick does to a live block (O37), and what
many of them do (O47, O48, O49). -/

namespace Sys2Proof.Machine

open Sys2Proof

/-! ### One tick of a live block -/

section
variable {s : State} {p : Nat}

theorem exec_oscTick_live (h : s.fault.cause = 0#4) : exec .oscTick s = .next (oscTick s) :=
  whenLive_live _ h

theorem oscTick_stopped (hr : s.osc.running = false) : oscTick s = respond .noSample 0#64 s := by
  simp [oscTick, hr]

/-- A OneShot oscillator that reaches PHI_MAX ends. -/
theorem oscTick_eq_oneShotEnd (hr : s.osc.running = true) (hp : Config.phiMax ≤ advancedPhase s.osc)
    (hl : s.osc.looping = false) : oscTick s = oneShotEnd s := by
  simp [oscTick, hr, hp, hl]

theorem lookup_indexRange (hi : s.osc.tlen.toNat ≤ tableIndex s.osc p) :
    lookup p s = raiseFault .indexRange (tableIndex s.osc p) s := by
  simp [lookup, hi]

theorem lookup_wtAddr (hi : tableIndex s.osc p < s.osc.tlen.toNat)
    (ha : s.params.wtSize ≤ tableAddr s.osc p) :
    lookup p s = raiseFault .wtAddr (tableAddr s.osc p) s := by
  simp [lookup, entryExists, hi, ha]

/-- A read that no host write overlaps returns the entry and takes no draw (R61). -/
theorem lookupDone_quiet (h : ∀ w ∈ s.overlap, w.addr.toNat ≠ tableAddr s.osc p) :
    lookupDone p s = respond .ok (zext64 (s.wt.entry (tableAddr s.osc p)))
      (s.withOsc { s.osc with phase := regOfNat 32 p, index := regOfNat 16 (tableIndex s.osc p) }) := by
  have hquiet : readOverlaps s (tableAddr s.osc p) = false := by simpa [readOverlaps] using h
  simp [lookupDone, memRead, afterRead, hquiet]

/-- A tick takes the phase from `p` to `q`: advanced by OSC_DELTA, and wrapped once when Looping (R152). -/
def AdvancesTo (o : OscRegs) (p q : Nat) : Prop :=
  (p + o.delta.toNat < Config.phiMax ∧ q = p + o.delta.toNat) ∨
    (o.looping = true ∧ q + Config.phiMax = p + o.delta.toNat)

/-- The table has an entry for the phase `p`, and it lies in WT (R153). -/
def EntryInside (s : State) (p : Nat) : Prop :=
  tableIndex s.osc p < s.osc.tlen.toNat ∧ tableAddr s.osc p < s.params.wtSize

theorem exec_oscTick_lookup (hlive : s.fault.cause = 0#4) (hr : s.osc.running = true)
    (hp : AdvancesTo s.osc s.osc.phase.toNat p) : exec .oscTick s = .next (lookup p s) := by
  rw [exec_oscTick_live hlive, oscTick_eq_lookup hr hp]

theorem exec_oscTick_sample (hlive : s.fault.cause = 0#4) (hr : s.osc.running = true)
    (hp : AdvancesTo s.osc s.osc.phase.toNat p) (hin : EntryInside s p) :
    exec .oscTick s = .next (lookupDone p s) := by
  rw [exec_oscTick_lookup hlive hr hp, lookup_eq_lookupDone hin.1 hin.2]

end

/-! ### Many ticks, each with a sample -/

/-- The state `t` comes from `s` by `k` ticks that each returned a sample, the last one at phase `p`, as far as the
next tick can tell. -/
structure TickedTo (s : State) (k p : Nat) (t : State) : Prop where
  fault    : t.fault = s.fault
  params   : t.params = s.params
  running  : t.osc.running = s.osc.running
  looping  : t.osc.looping = s.osc.looping
  delta    : t.osc.delta = s.osc.delta
  tbase    : t.osc.tbase = s.osc.tbase
  tlen     : t.osc.tlen = s.osc.tlen
  phase    : t.osc.phase.toNat = p
  answered : 0 < k → ∃ v, t.response = some { status := .ok, result := v }

section
variable {s t : State} {k p q : Nat}

theorem tickedTo_zero (s : State) : TickedTo s 0 s.osc.phase.toNat s where
  fault := rfl
  params := rfl
  running := rfl
  looping := rfl
  delta := rfl
  tbase := rfl
  tlen := rfl
  phase := rfl
  answered := fun h => absurd h (Nat.lt_irrefl 0)

theorem TickedTo.advancesTo (h : TickedTo s k p t) (hq : AdvancesTo s.osc p q) :
    AdvancesTo t.osc t.osc.phase.toNat q := by
  simpa only [AdvancesTo, h.phase, h.delta, h.looping] using hq

theorem TickedTo.entryInside (h : TickedTo s k p t) (hin : EntryInside s q) : EntryInside t q := by
  simpa only [EntryInside, tableAddr, tableIndex, h.tbase, h.tlen, h.params] using hin

/-- One more tick that returns a sample. -/
theorem TickedTo.tick (h : TickedTo s k p t) (hlive : s.fault.cause = 0#4) (hr : s.osc.running = true)
    (hq : AdvancesTo s.osc p q) (hin : EntryInside s q) :
    ∃ u, exec .oscTick t = .next u ∧ TickedTo s (k + 1) q u := by
  have hin' := h.entryInside hin
  have hlt : q < 2 ^ 32 := (phase_lt_of_tableIndex_lt hin.1).trans (by decide)
  refine ⟨_, exec_oscTick_sample (h.fault ▸ hlive) (h.running ▸ hr) (h.advancesTo hq) hin', ?_⟩
  exact { h with phase := regOfNat_toNat hlt, answered := fun _ => ⟨_, rfl⟩ }

/-- Ticks whose phases are `phase 1`, `phase 2` and so on, and whose entries lie in WT. -/
theorem runSeq_ticks_tickedTo (hlive : s.fault.cause = 0#4) (hr : s.osc.running = true) {phase : Nat → Nat}
    (h0 : phase 0 = s.osc.phase.toNat) (k : Nat) (hadv : ∀ j < k, AdvancesTo s.osc (phase j) (phase (j + 1)))
    (hin : ∀ j < k, EntryInside s (phase (j + 1))) :
    ∃ t, runSeq (List.replicate k .oscTick) s = .next t ∧ TickedTo s k (phase k) t := by
  induction k with
  | zero => exact ⟨s, rfl, h0 ▸ tickedTo_zero s⟩
  | succ k ih =>
    obtain ⟨t, hrun, ht⟩ := ih (fun j hj => hadv j (by omega)) (fun j hj => hin j (by omega))
    rw [runSeq_replicate_succ hrun]
    exact ht.tick hlive hr (hadv k (by omega)) (hin k (by omega))

end

/-! ### Which phases a tick reaches -/

section
variable {s : State} {p : Nat}

/-- A ready oscillator's table has an entry in WT for every phase (R240 (3)). -/
theorem OscReady.entryInside (h : OscReady s) (hp : p < Config.phiMax) : EntryInside s p := by
  have hi := tableIndex_lt s.osc h.tableNonempty hp
  have hinside := h.tableInside
  exact ⟨hi, by simp only [tableAddr]; omega⟩

/-- A Looping oscillator whose increment is below PHI_MAX advances modulo PHI_MAX (R167). -/
theorem advancesTo_mod {o : OscRegs} (hl : o.looping = true) (hd : o.delta.toNat < Config.phiMax) (n : Nat) :
    AdvancesTo o (n % Config.phiMax) ((n + o.delta.toNat) % Config.phiMax) := by
  simp only [AdvancesTo, Config.phiMax] at *
  rcases Nat.lt_or_ge (n % 1048576 + o.delta.toNat) 1048576 with hlt | hge
  · exact .inl ⟨hlt, by omega⟩
  · exact .inr ⟨hl, by omega⟩

/-- Ticks that stay below PHI_MAX: each adds one increment (R165). -/
theorem runSeq_ticks_below (hlive : s.fault.cause = 0#4) (hr : s.osc.running = true) {k : Nat}
    (hbelow : s.osc.phase.toNat + k * s.osc.delta.toNat < Config.phiMax)
    (hin : ∀ j < k, EntryInside s (s.osc.phase.toNat + (j + 1) * s.osc.delta.toNat)) :
    ∃ t, runSeq (List.replicate k .oscTick) s = .next t ∧
      TickedTo s k (s.osc.phase.toNat + k * s.osc.delta.toNat) t := by
  refine runSeq_ticks_tickedTo (phase := fun j => s.osc.phase.toNat + j * s.osc.delta.toNat) hlive hr (by simp) k
    (fun j hj => .inl ?_) hin
  have hle : (j + 1) * s.osc.delta.toNat ≤ k * s.osc.delta.toNat := Nat.mul_le_mul_right _ hj
  rw [Nat.succ_mul] at hle ⊢
  exact ⟨by omega, by omega⟩

/-- Ticks of a ready Looping oscillator: the increments add up modulo PHI_MAX (R167). -/
theorem runSeq_ticks_mod (hlive : s.fault.cause = 0#4) (hr : s.osc.running = true) (hl : s.osc.looping = true)
    (hready : OscReady s) (hphase : s.osc.phase.toNat < Config.phiMax) (k : Nat) :
    ∃ t, runSeq (List.replicate k .oscTick) s = .next t ∧
      TickedTo s k ((s.osc.phase.toNat + k * s.osc.delta.toNat) % Config.phiMax) t := by
  refine runSeq_ticks_tickedTo (phase := fun j => (s.osc.phase.toNat + j * s.osc.delta.toNat) % Config.phiMax)
    hlive hr ?_ k (fun j _ => ?_) (fun j _ => hready.entryInside (Nat.mod_lt _ (by decide)))
  · simp [Nat.mod_eq_of_lt hphase]
  · have hadv := advancesTo_mod hl (hready.increment hl) (s.osc.phase.toNat + j * s.osc.delta.toNat)
    rwa [Nat.add_assoc, ← Nat.succ_mul] at hadv

end

/-! ### A tick that does not move the phase (R166) -/

/-- The state with the entry at its own phase returned. -/
def holdSample (s : State) : State :=
  respond .ok (zext64 (s.wt.entry (tableAddr s.osc s.osc.phase.toNat)))
    (s.withOsc { s.osc with index := regOfNat 16 (tableIndex s.osc s.osc.phase.toNat) })

section
variable {s : State}

theorem holdSample_idem (s : State) : holdSample (holdSample s) = holdSample s := rfl

theorem exec_oscTick_hold (hlive : s.fault.cause = 0#4) (hr : s.osc.running = true) (hd : s.osc.delta = 0#64)
    (hin : EntryInside s s.osc.phase.toNat) (hquiet : s.overlap = []) :
    exec .oscTick s = .next (holdSample s) := by
  have hadv : AdvancesTo s.osc s.osc.phase.toNat s.osc.phase.toNat :=
    .inl (by simpa [hd] using phase_lt_of_tableIndex_lt hin.1)
  have hphase : regOfNat 32 s.osc.phase.toNat = s.osc.phase := by simp [regOfNat]
  rw [exec_oscTick_sample hlive hr hadv hin, lookupDone_quiet (by simp [hquiet]), hphase]
  rfl

theorem runSeq_ticks_hold (hlive : s.fault.cause = 0#4) (hr : s.osc.running = true) (hd : s.osc.delta = 0#64)
    (hin : EntryInside s s.osc.phase.toNat) (hquiet : s.overlap = []) (k : Nat) :
    runSeq (List.replicate (k + 1) .oscTick) s = .next (holdSample s) := by
  induction k with
  | zero => rw [runSeq_replicate_succ (t := s) rfl, exec_oscTick_hold hlive hr hd hin hquiet]
  | succ k ih =>
    rw [runSeq_replicate_succ ih, exec_oscTick_hold (s := holdSample s) hlive hr hd hin hquiet, holdSample_idem]

end

/-! ### The gap between wraps (R167) -/

section
variable {N p d g : Nat}

/-- `g` increments are the first that take a phase to the bound `N`. -/
theorem gap_reaches (hp : p < N) (hd : 0 < d) (hg : g = (N - p + d - 1) / d) :
    N ≤ p + g * d ∧ p + g * d < N + d := by
  have hle : g * d ≤ N - p + d - 1 := hg ▸ Nat.div_mul_le_self ..
  have hlt : N - p + d - 1 < d * (g + 1) := hg ▸ Nat.lt_mul_div_succ _ hd
  rw [Nat.mul_succ, Nat.mul_comm] at hlt
  omega

/-- From a phase below the increment, the gap is one of the two roundings of `N / d`. -/
theorem gap_eq_floor_or_ceil (hp : p < d) (hg : g = (N - p + d - 1) / d) :
    g = N / d ∨ g = (N + d - 1) / d := by
  have hfloor : N / d ≤ (N - p + d - 1) / d := Nat.div_le_div_right (by omega)
  have hceil : (N - p + d - 1) / d ≤ (N + d - 1) / d := Nat.div_le_div_right (by omega)
  have hnext : (N + d - 1) / d ≤ (N + d) / d := Nat.div_le_div_right (by omega)
  rw [Nat.add_div_right _ (by omega)] at hnext
  omega

end

/-! ### The obligations -/

/-- Settles O37: a Running oscillator ends or looks its phase up, and the lookup's guards are the two faults'. -/
theorem oscTickFollowsPseudocode : Obligations.OscTickFollowsPseudocode := by
  refine ⟨decode_encode (i := .oscTick) rfl, fun s hlive => ⟨fun hr => ?_, fun hr hp hl => ?_, ?_⟩⟩
  · rw [exec_oscTick_live hlive, oscTick_stopped hr]
    rfl
  · rw [exec_oscTick_live hlive, oscTick_eq_oneShotEnd hr hp hl]
    rfl
  · rintro p _ _ hr hp rfl rfl
    rw [exec_oscTick_lookup hlive hr hp]
    refine ⟨fun hi => ?_, fun hi ha => ?_, fun hi ha hw => ?_⟩
    · rw [lookup_indexRange hi]
      rfl
    · rw [lookup_wtAddr hi ha]
      rfl
    · rw [lookup_eq_lookupDone hi ha, lookupDone_quiet hw]
      rfl

/-- Settles O47: `n` is the last number of increments that stays below PHI_MAX. -/
theorem oneShotCycleLength : Obligations.OneShotCycleLength := by
  refine ⟨by decide, ?_⟩
  intro s n hlive hr hl hphase hpos _ htlen hn hin
  have hlast : n * s.osc.delta.toNat ≤ 1048575 := hn ▸ Nat.div_mul_le_self ..
  have hover : 1048575 < s.osc.delta.toNat * (n + 1) := hn ▸ Nat.lt_mul_div_succ _ hpos
  have hbelow (j : Nat) (hj : j ≤ n) : j * s.osc.delta.toNat < Config.phiMax :=
    Nat.lt_succ_of_le ((Nat.mul_le_mul_right _ hj).trans hlast)
  have hrun (k : Nat) (hk : k ≤ n) : ∃ t, runSeq (List.replicate k .oscTick) s = .next t ∧
      TickedTo s k (k * s.osc.delta.toNat) t := by
    have hticks := runSeq_ticks_below hlive hr (k := k)
    simp only [hphase, BitVec.toNat_zero, Nat.zero_add] at hticks
    exact hticks (hbelow k hk) fun j hj =>
      ⟨tableIndex_lt _ htlen (hbelow _ (by omega)), hin _ (by omega) (by omega)⟩
  constructor
  · intro k hk hkn
    obtain ⟨t, ht, h⟩ := hrun k hkn
    obtain ⟨v, hv⟩ := h.answered hk
    exact ⟨t, v, ht, h.phase, h.running.trans hr, hv⟩
  · obtain ⟨t, ht, h⟩ := hrun n le_rfl
    have hend : Config.phiMax ≤ advancedPhase t.osc := by
      rw [advancedPhase, h.phase, h.delta, ← Nat.succ_mul, Nat.mul_comm]
      exact hover
    rw [runSeq_replicate_succ ht, exec_oscTick_live (h.fault ▸ hlive),
      oscTick_eq_oneShotEnd (h.running.trans hr) hend (h.looping.trans hl)]
    exact ⟨_, rfl, rfl, rfl, rfl⟩

/-- Settles O48: the state after the first tick is one that a tick does not change. -/
theorem zeroFrequencyHoldsIndex : Obligations.ZeroFrequencyHoldsIndex := by
  rintro s k _ hlive hr hd hphase rfl htlen ha hquiet
  exact runSeq_ticks_hold hlive hr hd ⟨tableIndex_lt _ htlen hphase, ha⟩ hquiet k

/-- Settles O49: the phases are those of k increments, modulo PHI_MAX, and g is the first number of increments that
reaches PHI_MAX. -/
theorem loopingPhaseIsModular : Obligations.LoopingPhaseIsModular := by
  intro s hlive hr hl hready hphase
  have hrun := runSeq_ticks_mod hlive hr hl hready hphase
  refine ⟨fun k => ?_, fun g hlow hg => ⟨fun k hk => ?_, ?_, gap_eq_floor_or_ceil hlow hg⟩⟩
  · obtain ⟨t, ht, h⟩ := hrun k
    exact ⟨t, ht, h.running.trans hr, h.phase, h.answered⟩
  · obtain ⟨t, ht, h⟩ := hrun k
    obtain ⟨hreach, hbelow⟩ := gap_reaches hphase (by omega) hg
    have hle : (k + 1) * s.osc.delta.toNat ≤ g * s.osc.delta.toNat := Nat.mul_le_mul_right _ hk
    rw [Nat.succ_mul] at hle
    exact ⟨t, ht, h.phase.trans (Nat.mod_eq_of_lt (by simp only [Config.phiMax]; omega))⟩
  · obtain ⟨t, ht, h⟩ := hrun g
    obtain ⟨hreach, hbelow⟩ := gap_reaches hphase (by omega) hg
    have hinc := hready.increment hl
    have hp := h.phase
    simp only [Config.phiMax] at hinc hp
    exact ⟨t, ht, by omega, by omega⟩

end Sys2Proof.Machine
end

section
/-! PROOFS. The filter's commands (spec/44_filter.md R190 to R193): what each does to a live block (O50 to O53), the
coefficient under a change of rate (O54), the tick's fixed points (O55) and its overflow policies (O56). -/

namespace Sys2Proof.Machine

open Sys2Proof

/-! ### What a live block answers -/

section
variable {s : State} (h : s.fault.cause = 0#4)
include h

theorem exec_fltTick_live (x : Sample) :
    exec (.fltTick x) s =
      .next (respond .ok
        (filterResult (s.flt.tick x).notch (s.flt.tick x).hp (s.flt.tick x).bp (s.flt.tick x).lp)
        (s.withFlt (s.flt.withOut (s.flt.tick x)))) :=
  whenLive_live _ h

theorem exec_fltSetFreq_live (f : MilliHertz) :
    exec (.fltSetFreq f) s =
      .next (respond .ok 0#64
        (s.withFlt { s.flt with freq := f, ft := regOfNat 64 (ftOf f.toNat s.flt.rate.toNat) })) :=
  whenLive_live _ h

theorem exec_fltSetRes_live (r : BitVec 32) :
    exec (.fltSetRes r) s =
      .next (respond .ok 0#64 (s.withFlt { s.flt with qinv := regOfNat 64 (qinvOf r.toNat) })) :=
  whenLive_live _ h

/-- Rate 0 is refused (spec/60_exceptions.md R221). -/
theorem exec_fltSetRate_zero : exec (.fltSetRate 0#32) s = .next (reject s) :=
  whenLive_live _ h

theorem exec_fltSetRate_live {r : MilliHertz} (hr : r ≠ 0#32) :
    exec (.fltSetRate r) s =
      .next (respond .ok 0#64
        (s.withFlt { s.flt with rate := r, ft := regOfNat 64 (ftOf s.flt.freq.toNat r.toNat) })) := by
  refine (whenLive_live _ h).trans ?_
  rw [if_neg hr]

end

/-! ### The coefficients (R191 to R193, R196) -/

/-- FLT_FT holds `ft` of any 32-bit frequency exactly (R41). -/
theorem regOfNat_ftOf_toNat (f : MilliHertz) (rate : Nat) :
    (regOfNat 64 (ftOf f.toNat rate)).toNat = ftOf f.toNat rate :=
  regOfNat_toNat (ftOf_lt f.isLt)

/-- FLT_QINV holds `q_inv` of any resonance exactly (R42). -/
theorem regOfNat_qinvOf_toNat (r : Nat) : (regOfNat 64 (qinvOf r)).toNat = qinvOf r :=
  regOfNat_toNat (Nat.lt_of_le_of_lt (qinvOf_le r) (by decide))

theorem ftOf_le_of_freq_le {f f' : Nat} (rate : Nat) (h : f ≤ f') : ftOf f rate ≤ ftOf f' rate :=
  Nat.div_le_div_right (Nat.mul_le_mul_left _ h)

theorem ftOf_le_of_rate_le (f : Nat) {rate rate' : Nat} (hpos : 0 < rate) (h : rate ≤ rate') :
    ftOf f rate' ≤ ftOf f rate :=
  Nat.div_le_div_left h hpos

theorem ftOf_two_mul (f rate : Nat) : ftOf f (2 * rate) = ftOf f rate / 2 := by
  rw [ftOf, Nat.mul_comm 2, ← Nat.div_div_eq_div_mul, ftOf]

/-! ### One tick, step by step (R190, R195) -/

/-- The outputs of a tick, each from those of the steps before it. -/
theorem filterTick_eq {policy : FltOverflow} {round : DivRound} {ft qinv lp bp x : Int} {o : FilterOut}
    (hlp : filterLow policy round ft lp bp = o.lp) (hhp : filterHigh policy round qinv x o.lp bp = o.hp)
    (hbp : filterBand policy round ft bp o.hp = o.bp) (hnotch : filterNotch policy o.hp o.lp = o.notch) :
    filterTick policy round ft qinv lp bp x = o := by
  simp only [filterTick, hlp, hhp, hbp, hnotch]

section
variable (ft qinv lp bp hp x : Int)

theorem filterLow_wrap_towardZero :
    filterLow .wrap .towardZero ft lp bp = wrap16 (lp + (ft * bp).tdiv 67108864) := by
  rw [filterLow, divn_towardZero]
  rfl

theorem filterHigh_wrap_towardZero :
    filterHigh .wrap .towardZero qinv x lp bp = wrap16 (x - lp - (qinv * bp).tdiv 67108864) := by
  rw [filterHigh, divn_towardZero]
  rfl

theorem filterBand_wrap_towardZero :
    filterBand .wrap .towardZero ft bp hp = wrap16 (bp + (ft * hp).tdiv 67108864) := by
  rw [filterBand, divn_towardZero]
  rfl

end

/-! ### Where a tick changes nothing (R197) -/

theorem wrap16_sext16 (v : Sample) : wrap16 (sext16 v) = sext16 v :=
  congrArg sext16 (toSample_sext16 v)

/-- Negation commutes with the truncation to 16 bits. -/
theorem toSample_neg_sext16 (v : Sample) : toSample (-sext16 v) = -v := by
  rw [toSample, BitVec.ofInt_neg]
  exact congrArg (- ·) (toSample_sext16 v)

/-- The least Sample is its own negation, so the magnitude stays for it too. -/
theorem natAbs_sext16_neg (v : Sample) : (sext16 (-v)).natAbs = (sext16 v).natAbs := by
  by_cases hmin : v = 0x8000#16
  · rw [hmin]
    rfl
  · rw [sext16, BitVec.toInt_neg_of_ne_intMin hmin, Int.natAbs_neg]
    rfl

/-- A product below FLT_NORM in magnitude adds nothing to the accumulator. -/
theorem wrap16_add_tdiv_small {a : Int} (h : a.natAbs < 67108864) (v : Sample) :
    wrap16 (sext16 v + a.tdiv 67108864) = sext16 v := by
  have hzero : a.tdiv 67108864 = 0 := (divn_towardZero a 67108864).symm.trans (divn_towardZero_small h)
  rw [hzero, Int.add_zero, wrap16_sext16]

/-- With `q_inv = FLT_NORM` and nothing from the low-pass or the input, the high-pass is minus the band-pass. -/
theorem filterHigh_norm (v : Sample) :
    filterHigh .wrap .towardZero 67108864 0 0 (sext16 v) = sext16 (-v) := by
  rw [filterHigh_wrap_towardZero, Int.mul_tdiv_cancel_left _ (by decide), Int.sub_zero, Int.zero_sub, wrap16,
    toSample_neg_sext16]

/-- The outputs of a filter at rest in the dead band. -/
def deadBandOut (f : FltRegs) : FilterOut :=
  { lp := 0, bp := sext16 f.bp, hp := sext16 f.hp, notch := sext16 f.hp }

theorem tick_deadBand {f : FltRegs} (hq : f.qinv = 67108864#64) (hlp : f.lp = 0#16) (hhp : f.hp = -f.bp)
    (hsmall : ((f.ft.toNat : Int) * f.bp.toInt).natAbs < 67108864) : f.tick 0#16 = deadBandOut f := by
  have hneg : ((f.ft.toNat : Int) * sext16 f.hp).natAbs < 67108864 := by
    rwa [hhp, Int.natAbs_mul, natAbs_sext16_neg, ← Int.natAbs_mul]
  apply filterTick_eq
  case hlp => rw [hlp]; exact (filterLow_wrap_towardZero ..).trans (wrap16_add_tdiv_small hsmall 0#16)
  case hhp => rw [hq, deadBandOut, hhp]; exact filterHigh_norm f.bp
  case hbp => exact (filterBand_wrap_towardZero ..).trans (wrap16_add_tdiv_small hneg f.bp)
  case hnotch => exact (congrArg wrap16 (Int.add_zero _)).trans (wrap16_sext16 f.hp)

theorem withOut_deadBandOut {f : FltRegs} (hlp : f.lp = 0#16) : f.withOut (deadBandOut f) = f := by
  simp only [FltRegs.withOut, deadBandOut, toSample_sext16]
  rw [show toSample 0 = f.lp from hlp.symm]

/-! ### The obligations -/

/-- Settles O54: `n // (2 * rate)` is `n // rate` halved, and FLT_FT held `n // rate` exactly. -/
theorem doublingRateHalvesFt : Obligations.DoublingRateHalvesFt := by
  refine ⟨fun _ _ rate => ftOf_le_of_freq_le rate, fun f _ _ => ftOf_le_of_rate_le f, ?_⟩
  intro s r hlive hderived hrate hdouble
  have hr : r ≠ 0#32 := by bv_omega
  refine ⟨_, exec_fltSetRate_live hlive hr, rfl, rfl, ?_⟩
  calc (regOfNat 64 (ftOf s.flt.freq.toNat r.toNat)).toNat
      = ftOf s.flt.freq.toNat (2 * s.flt.rate.toNat) := by rw [regOfNat_ftOf_toNat, hdouble]
    _ = s.flt.ft.toNat / 2 := by rw [ftOf_two_mul, hderived.ft]

/-- Settles O55: the outputs are the registers' own values, so the state they are written to is the old one. -/
theorem filterDeadBand : Obligations.FilterDeadBand := by
  intro s hlive hq hlp hhp hsmall
  rw [exec_fltTick_live hlive, tick_deadBand hq hlp hhp hsmall, withOut_deadBandOut hlp]
  simp only [filterResult, deadBandOut, toSample_sext16]
  rfl

/-- Settles O56: every step's exact value is in range, where either policy leaves it alone. -/
theorem overflowPoliciesAgreeInRange : Obligations.OverflowPoliciesAgreeInRange := by
  intro policy round ft qinv lp bp x e1 e2 e3 e4 h1 h2 h3 h4 hrange
  have hcut {v e : Int} (he : e = v) (hmem : e ∈ [e1, e2, e3, e4]) : cut policy v = e := by
    obtain ⟨hlow, hhigh⟩ := hrange e hmem
    rw [← he, cut_of_mem policy hlow hhigh]
  apply filterTick_eq
  case hlp => exact hcut h1 (by simp)
  case hhp => exact hcut h2 (by simp)
  case hbp => exact hcut h3 (by simp)
  case hnotch => exact hcut h4 (by simp)

/-- Settles O50: the four values are the tick's outputs, step by step, in this hardware's policy and rounding. -/
theorem fltTickFollowsOrder : Obligations.FltTickFollowsOrder := by
  intro x s lp hp bp notch hlp hhp hbp hnotch
  refine ⟨decode_encode (i := .fltTick x) rfl, fun hlive => ?_⟩
  have htick : s.flt.tick x = { lp := lp, bp := bp, hp := hp, notch := notch } := by
    apply filterTick_eq
    case hlp => exact (filterLow_wrap_towardZero ..).trans hlp.symm
    case hhp => exact (filterHigh_wrap_towardZero ..).trans hhp.symm
    case hbp => exact (filterBand_wrap_towardZero ..).trans hbp.symm
    case hnotch => exact hnotch.symm
  rw [exec_fltTick_live hlive, htick]
  rfl

/-- Settles O51: the frequency is stored with its coefficient, which fits its register. -/
theorem fltSetFreqDerivesFt : Obligations.FltSetFreqDerivesFt :=
  fun f s => ⟨decode_encode (i := .fltSetFreq f) rfl, fun hlive =>
    ⟨_, regOfNat_ftOf_toNat f s.flt.rate.toNat, exec_fltSetFreq_live hlive f⟩⟩

/-- Settles O52: the clamped difference is stored, and fits its register. -/
theorem fltSetResClamps : Obligations.FltSetResClamps :=
  fun r _ => ⟨decode_encode (i := .fltSetRes r) rfl, fun hlive =>
    ⟨_, regOfNat_qinvOf_toNat r.toNat, exec_fltSetRes_live hlive r⟩⟩

/-- Settles O53: rate 0 is refused, and any other is stored with its coefficient, which fits its register. -/
theorem fltSetRateDerivesFt : Obligations.FltSetRateDerivesFt := by
  refine fun r s => ⟨decode_encode (i := .fltSetRate r) rfl, ?_, fun hlive hr => ?_⟩
  · rintro hlive rfl
    exact exec_fltSetRate_zero hlive
  · exact ⟨_, regOfNat_ftOf_toNat s.flt.freq r.toNat, exec_fltSetRate_live hlive hr⟩

end Sys2Proof.Machine
end

section
/-! PROOFS. RDREG (spec/45_system.md): what it reads (O58), and which of its words are illegal (O59). -/

namespace Sys2Proof.Machine

open Sys2Proof

/-! ### Register numbers (R211) -/

theorem legalRegNumber_iff (r : BitVec 8) : legalRegNumber r = true ↔ r ∈ Reg.all.map Reg.number := by
  rw [← ofNumber_isSome, Reg.ofNumber, List.find?_isSome, List.mem_map]
  simp only [beq_iff_eq]

theorem legalRegNumber_number (reg : Reg) : legalRegNumber reg.number = true := by
  rw [← ofNumber_isSome, ofNumber_number, Option.isSome_some]

/-! ### What RDREG reads (R210) -/

/-- The notch is cut by wrapping, which is addition of 16-bit patterns (spec/10_state.md R43). -/
theorem notch_eq_add (f : FltRegs) : f.notch = f.hp + f.lp := by
  calc f.notch
      = toSample (sext16 f.hp + sext16 f.lp) := toSample_wrap16 _
    _ = toSample (sext16 f.hp) + toSample (sext16 f.lp) := BitVec.ofInt_add ..
    _ = f.hp + f.lp := by rw [toSample_sext16, toSample_sext16]

theorem readReg_fltNotch (s : State) : readReg s .fltNotch = (s.flt.hp + s.flt.lp).setWidth 64 :=
  congrArg zext64 (notch_eq_add s.flt)

/-- RDREG does not ask whether the block is faulted. -/
theorem exec_rdreg_number (reg : Reg) (s : State) :
    exec (.rdreg reg.number) s = .next (respond .ok (readReg s reg) s) := by
  change execRdreg reg.number s = _
  rw [execRdreg, ofNumber_number]

/-! ### Words that are illegal (R211) -/

/-- A word with RDREG's opcode is illegal for its number, for a bit of `A[31:8]` or of `B`, or for RSV. -/
theorem decode_rdreg_illegal {w : Command} (hop : w.extractLsb' 56 8 = 0xF0#8)
    (hbad : legalRegNumber (w.extractLsb' 0 8) = false ∨ w.extractLsb' 8 24 ≠ 0#24 ∨
      w.extractLsb' 32 16 ≠ 0#16 ∨ w.extractLsb' 48 8 ≠ 0#8) :
    ∃ why, decode w = .illegal why := by
  have hunused (h : w &&& Mnemonic.rdreg.form.unusedMask ≠ 0#64) :
      ∃ m : Mnemonic, m.op = w.extractLsb' 56 8 ∧ w &&& m.form.unusedMask ≠ 0#64 := ⟨.rdreg, hop.symm, h⟩
  apply (illegalInExactlyFourCases w).mpr
  rcases hbad with hnumber | ha | hb | hrsv
  · exact .inr (.inr (.inr ⟨hop, hnumber⟩))
  · exact .inr (.inr (.inl (hunused fun h => ha (extractLsb'_eq_zero (by decide) h))))
  · exact .inr (.inr (.inl (hunused fun h => hb (extractLsb'_eq_zero (by decide) h))))
  · exact .inr (.inl hrsv)

/-- A faulted block answers FAULT before it answers ILLEGAL (spec/60_exceptions.md R225). -/
theorem whenLive_answerIllegal (s : State) :
    whenLive s (answerIllegal s) =
      .next (respond (if s.fault.cause = 0#4 then .illegal else .fault) 0#64 s) := by
  by_cases hlive : s.fault.cause = 0#4
  · rw [whenLive_live _ hlive, if_pos hlive, answerIllegal]
  · rw [whenLive_faulted _ hlive, if_neg hlive, answerFaulted]

/-! ### The obligations -/

/-- Settles O59: such a word is in one of the decoder's four illegal cases, and the 21 numbers are the registers'. -/
theorem illegalRdregWords : Obligations.IllegalRdregWords := by
  refine ⟨fun w s hop hbad => ?_, legalRegNumber_iff⟩
  obtain ⟨why, hwhy⟩ := decode_rdreg_illegal hop hbad
  exact (runWord_illegal hwhy).trans (whenLive_answerIllegal s)

/-- Settles O58: the list pairs each register's number with what RDREG reads from it. -/
theorem rdregReadsEveryRegister : Obligations.RdregReadsEveryRegister := by
  intro s r v hmem
  rw [← readReg_fltNotch] at hmem
  have hread : (r, v) ∈ Reg.all.map fun reg => (reg.number, readReg s reg) := hmem
  obtain ⟨reg, -, hreg⟩ := List.mem_map.mp hread
  cases hreg
  exact ⟨decode_encode (i := .rdreg reg.number) (legalRegNumber_number reg), exec_rdreg_number reg s⟩

end Sys2Proof.Machine
end

section
/-! PROOFS. Faults, rejections and illegal words (spec/60_exceptions.md R220 to R227): every command completes (O12),
an illegal word changes nothing (O13), a faulted block executes RDREG alone and keeps its fault (O14, O15), and the
causes of a fault and of a rejection (O16, O17). -/

namespace Sys2Proof.Machine

open Sys2Proof

/-! ### The step on the host's next event -/

section
variable {s t : State}

theorem step_idle (h : s.host = []) : step s = .next s := by
  simp only [step, nextEvent, h]

theorem step_event {e : HostEvent} {rest : List HostEvent} (h : s.host = e :: rest) :
    step s = runEvent e { s with host := rest } := by
  simp only [step, nextEvent, h]

/-- Every word completes, so the writes that overlap it land (spec/20_memory.md R67). -/
theorem runCommand_eq_landWrites (w : Command) (ws : List WtWrite) (s : State) :
    ∃ u, runWord w { s with overlap := ws } = .next u ∧
      runCommand w ws s = landWrites ws { u with overlap := [] } := by
  obtain ⟨u, hu, -⟩ := runWord_answered w { s with overlap := ws }
  exact ⟨u, hu, by simp only [runCommand, hu]⟩

end

/-! ### Words that a faulted block is given (R223) -/

section
variable {s : State} {i : Instr} {w : Command}

/-- RDREG is the one command that does not ask whether the block is live. -/
theorem exec_faulted (hfault : s.fault.cause ≠ 0#4) (hi : ∀ r, i ≠ .rdreg r) :
    exec i s = .next (answerFaulted s) := by
  cases i with
  | rdreg r => exact absurd rfl (hi r)
  | sadd | smul | snmul | sclip | lfsr16Next | lfsr32Next | noiseTick => exact whenLive_faulted _ hfault
  | oscTick | oscStart | oscStop | oscReset | oscResetStart | oscStopReset => exact whenLive_faulted _ hfault
  | oscSetFreq | oscSetRate | oscGetRate | oscSetTable | oscSetRepeat => exact whenLive_faulted _ hfault
  | fltTick | fltSetFreq | fltSetRes | fltSetRate | fltGetRate => exact whenLive_faulted _ hfault

theorem runWord_faulted (hfault : s.fault.cause ≠ 0#4) (hw : ¬ isLegalRdreg w) :
    runWord w s = .next (answerFaulted s) := by
  cases hd : decode w with
  | legal i =>
    rw [runWord_legal hd]
    refine exec_faulted hfault fun r hr => hw ⟨r, ?_⟩
    rw [hd, hr]
  | illegal why => exact (runWord_illegal hd).trans (whenLive_faulted _ hfault)

/-- The number of a legal RDREG is a register's, and reading that register is answered OK. -/
theorem runWord_legalRdreg (hw : isLegalRdreg w) : ∃ v, runWord w s = .next (respond .ok v s) := by
  obtain ⟨r, hd⟩ := hw
  obtain ⟨-, hwf⟩ := encodeDecodeRoundTrip w _ hd
  obtain ⟨reg, -, rfl⟩ := List.mem_map.mp ((legalRegNumber_iff r).mp hwf)
  exact ⟨readReg s reg, (runWord_legal hd).trans (exec_rdreg_number reg s)⟩

end

/-! ### Steps that leave the registers (R227) -/

/-- Every register of R23 is in `t` as in `s`. -/
structure SameRegisters (s t : State) : Prop where
  fault  : t.fault = s.fault
  osc    : t.osc = s.osc
  flt    : t.flt = s.flt
  lfsr16 : t.lfsr16 = s.lfsr16
  lfsr32 : t.lfsr32 = s.lfsr32

section
variable {s t : State}

theorem SameRegisters.refl (s : State) : SameRegisters s s := ⟨rfl, rfl, rfl, rfl, rfl⟩

/-- Host writes of WT write no register (spec/20_memory.md R60). -/
theorem landWrites_sameRegisters {ws : List WtWrite} (h : landWrites ws s = .next t) : SameRegisters s t := by
  obtain ⟨m, rfl, -, -⟩ := landWrites_next h
  exact ⟨rfl, rfl, rfl, rfl, rfl⟩

/-- A word that a faulted block is given is only answered, and the writes that overlap it reach WT alone. -/
theorem runCommand_faulted_sameRegisters {w : Command} {ws : List WtWrite} (hfault : s.fault.cause ≠ 0#4)
    (h : runCommand w ws s = .next t) : SameRegisters s t := by
  obtain ⟨u, hu, hland⟩ := runCommand_eq_landWrites w ws s
  rw [hland] at h
  rcases runWord_cases hu with ⟨_, _, rfl⟩ | ⟨_, -, hlive, -⟩
  · exact { landWrites_sameRegisters h with }
  · exact absurd hlive hfault

end

/-! ### Where a fault comes from (R220, R222) -/

/-- The phase a Running oscillator's tick looks up: advanced, and wrapped once at PHI_MAX (R152). -/
def wrappedPhase (o : OscRegs) : Nat :=
  if Config.phiMax ≤ advancedPhase o then advancedPhase o - Config.phiMax else advancedPhase o

section
variable {s t : State} {i : Instr} {p : Nat}

theorem RegWrite.eq_oscTick_of_fault_ne (hw : RegWrite s i t) (hne : t.fault ≠ s.fault) : i = .oscTick := by
  cases hw with
  | tickFault | tickSample | tickEnd => rfl
  | osc | flt | lfsr16Next | lfsr32Next | noiseTick => exact absurd rfl hne

/-- A command that changes the fault registers is a tick of a live block. -/
theorem exec_eq_oscTick_of_fault_ne (h : exec i s = .next t) (hne : t.fault ≠ s.fault) :
    i = .oscTick ∧ s.fault.cause = 0#4 ∧ t = oscTick s := by
  rcases exec_cases h with ⟨_, _, rfl⟩ | ⟨hlive, hw⟩
  · exact absurd rfl hne
  · obtain rfl := hw.eq_oscTick_of_fault_ne hne
    rw [exec_oscTick_live hlive] at h
    cases h
    exact ⟨rfl, hlive, rfl⟩

/-- A stopped tick and a OneShot end raise no fault, so a tick that does is a lookup. -/
theorem oscTick_eq_lookup_of_fault_ne (hne : (oscTick s).fault ≠ s.fault) :
    s.osc.running = true ∧ oscTick s = lookup (wrappedPhase s.osc) s := by
  rcases oscTick_cases s with ⟨-, h⟩ | ⟨hr, hp, h⟩ | ⟨hr, hp, -, h⟩ | ⟨-, -, -, h⟩
  · exact absurd (h ▸ rfl) hne
  · exact ⟨hr, by rw [h, wrappedPhase, if_neg (Nat.not_le_of_lt hp)]⟩
  · exact ⟨hr, by rw [h, wrappedPhase, if_pos hp]⟩
  · exact absurd (h ▸ rfl) hne

/-- A lookup that finds its entry raises no fault. -/
theorem lookup_eq_raiseFault_of_fault_ne (hne : (lookup p s).fault ≠ s.fault) :
    (s.osc.tlen.toNat ≤ tableIndex s.osc p ∧ lookup p s = raiseFault .indexRange (tableIndex s.osc p) s) ∨
    (tableIndex s.osc p < s.osc.tlen.toNat ∧ s.params.wtSize ≤ tableAddr s.osc p ∧
      lookup p s = raiseFault .wtAddr (tableAddr s.osc p) s) := by
  rcases lookup_cases p s with h | h | ⟨-, -, h⟩
  · exact .inl h
  · exact .inr h
  · exact absurd (h ▸ rfl) hne

end

/-! ### Where a rejection comes from (R221) -/

/-- The latest response is REJECTED. -/
def Rejected (t : State) : Prop := ∃ r, t.response = some { status := .rejected, result := r }

section
variable {s t u : State} {i : Instr}

theorem reject_rejected (s : State) : Rejected (reject s) := ⟨_, rfl⟩

theorem respond_not_rejected {status : Status} {result : Result} (h : status ≠ .rejected) :
    ¬ Rejected (respond status result s) := by
  simp [Rejected, h]

theorem whenLive_not_rejected (hu : ¬ Rejected u) (h : whenLive s u = .next t) : ¬ Rejected t := by
  rcases whenLive_cases h with ⟨-, rfl⟩ | ⟨-, rfl⟩
  · exact hu
  · exact respond_not_rejected (by decide)

theorem whenLive_ok_not_rejected {result : Result} (h : whenLive s (respond .ok result u) = .next t) :
    ¬ Rejected t :=
  whenLive_not_rejected (respond_not_rejected (by decide)) h

theorem lookup_not_rejected (p : Nat) (s : State) : ¬ Rejected (lookup p s) := by
  rcases lookup_cases p s with ⟨-, h⟩ | ⟨-, -, h⟩ | ⟨-, -, h⟩
  · rw [h]
    exact respond_not_rejected (by decide)
  · rw [h]
    exact respond_not_rejected (by decide)
  · rw [h]
    exact respond_not_rejected (by decide)

theorem oscTick_not_rejected (s : State) : ¬ Rejected (oscTick s) := by
  rcases oscTick_cases s with ⟨-, h⟩ | ⟨-, -, h⟩ | ⟨-, -, -, h⟩ | ⟨-, -, -, h⟩
  · rw [h]
    exact respond_not_rejected (by decide)
  · rw [h]
    exact lookup_not_rejected _ s
  · rw [h]
    exact lookup_not_rejected _ s
  · rw [h]
    exact respond_not_rejected (by decide)

theorem execRdreg_not_rejected {r : BitVec 8} (h : execRdreg r s = .next t) : ¬ Rejected t := by
  unfold execRdreg at h
  split at h
  · cases h
    exact respond_not_rejected (by decide)
  · exact whenLive_not_rejected (respond_not_rejected (by decide)) h

/-- A setter of a sample rate refuses rate 0 only. -/
theorem eq_zero_of_rejected {r : MilliHertz} (hu : ¬ Rejected u)
    (h : whenLive s (if r = 0#32 then reject s else u) = .next t) (ht : Rejected t) : r = 0#32 := by
  by_contra hr
  rw [if_neg hr] at h
  exact whenLive_not_rejected hu h ht

/-- A rejected command sets a sample rate to 0. -/
theorem exec_rejected (h : exec i s = .next t) (ht : Rejected t) :
    i = .oscSetRate 0#32 ∨ i = .fltSetRate 0#32 := by
  cases i with
  | oscSetRate r => exact .inl (congrArg _ (eq_zero_of_rejected (respond_not_rejected (by decide)) h ht))
  | fltSetRate r => exact .inr (congrArg _ (eq_zero_of_rejected (respond_not_rejected (by decide)) h ht))
  | oscTick => exact absurd ht (whenLive_not_rejected (oscTick_not_rejected s) h)
  | rdreg r => exact absurd ht (execRdreg_not_rejected h)
  | sadd | smul | snmul | sclip | lfsr16Next | lfsr32Next | noiseTick => exact absurd ht (whenLive_ok_not_rejected h)
  | oscStart | oscStop | oscReset | oscResetStart | oscStopReset => exact absurd ht (whenLive_ok_not_rejected h)
  | oscSetFreq | oscGetRate | oscSetTable | oscSetRepeat => exact absurd ht (whenLive_ok_not_rejected h)
  | fltTick | fltSetFreq | fltSetRes | fltGetRate => exact absurd ht (whenLive_ok_not_rejected h)

theorem exec_rate_zero (hlive : s.fault.cause = 0#4) (hi : i = .oscSetRate 0#32 ∨ i = .fltSetRate 0#32) :
    exec i s = .next (reject s) := by
  rcases hi with rfl | rfl
  · exact exec_oscSetRate_zero hlive
  · exact exec_fltSetRate_zero hlive

end

/-! ### The obligations -/

/-- Settles O12: every instruction answers, and answering is a next state. -/
theorem everyInstructionCompletes : Obligations.EveryInstructionCompletes := by
  intro i s
  obtain ⟨t, ht, -⟩ := exec_answered i s
  exact ⟨t, ht⟩

/-- Settles O14: every arm but RDREG's asks first whether the block is faulted. -/
theorem faultedBlockExecutesOnlyRdreg : Obligations.FaultedBlockExecutesOnlyRdreg :=
  fun _ _ hfault => ⟨runWord_faulted hfault, runWord_legalRdreg⟩

/-- Settles O15: without reset, what is left to a faulted block is to idle, to answer, and to have WT written. -/
theorem noSecondFault : Obligations.NoSecondFault := by
  intro s t hfault hstep hreset
  suffices h : SameRegisters s t from ⟨h.fault, h.osc, h.flt, h.lfsr16, h.lfsr32⟩
  cases hhost : s.host with
  | nil =>
    rw [step_idle hhost] at hstep
    cases hstep
    exact .refl s
  | cons e rest =>
    obtain ⟨hne, hnea⟩ := hreset e rest hhost
    rw [step_event hhost] at hstep
    cases e with
    | command w ws =>
      exact { runCommand_faulted_sameRegisters (s := { s with host := rest }) hfault hstep with }
    | abandonedCommand w ws => exact absurd rfl (hnea w ws)
    | writeWt write => exact { landWrites_sameRegisters (s := { s with host := rest }) hstep with }
    | reset => exact absurd rfl hne

/-- Settles O16: a changed fault register comes from a tick, the tick's from a lookup, and the lookup's from one of its
two guards. -/
theorem onlyTickRaisesFault : Obligations.OnlyTickRaisesFault := by
  intro i s t h hne
  obtain ⟨hi, hlive, rfl⟩ := exec_eq_oscTick_of_fault_ne h hne
  obtain ⟨hr, hlookup⟩ := oscTick_eq_lookup_of_fault_ne hne
  rw [hlookup] at hne ⊢
  exact ⟨hi, hlive, hr, wrappedPhase s.osc, tableIndex s.osc (wrappedPhase s.osc), rfl, rfl,
    lookup_eq_raiseFault_of_fault_ne hne⟩

/-- Settles O17: no other command answers REJECTED, and `reject` writes the response alone. -/
theorem rejectedOnlyAtRateZero : Obligations.RejectedOnlyAtRateZero := by
  refine fun i s hlive => ⟨⟨?_, fun hi => ?_⟩, exec_rate_zero hlive⟩
  · rintro ⟨t, r, ht, hr⟩
    exact exec_rejected ht ⟨r, hr⟩
  · obtain ⟨r, hr⟩ := reject_rejected s
    exact ⟨reject s, r, exec_rate_zero hlive hi, hr⟩

/-- Settles O13: a live block answers an illegal word and does nothing else. -/
theorem illegalWordChangesNothing : Obligations.IllegalWordChangesNothing :=
  fun _ _ _ hd hlive => (runWord_illegal hd).trans (whenLive_live _ hlive)

end Sys2Proof.Machine
end

section
/-! PROOFS. The host's side (spec/60_exceptions.md R235, R240): a host that issues nothing leaves the block idle (O21),
and one that keeps the contract neither stops the machine (O24) nor has a tick fault (O39). -/

namespace Sys2Proof.Machine

open Sys2Proof

/-! ### A tick of a ready oscillator (R240 (3), (4)) -/

/-- What R240 (3) and (4) promise of the state `t` after a tick of `s`. -/
structure ReadyTick (s t : State) : Prop where
  fault    : t.fault = s.fault
  ready    : OscReady t
  phase    : t.osc.phase.toNat < Config.phiMax
  answered : (∃ v, t.response = some { status := .ok, result := v }) ∨
    t.response = some { status := .noSample, result := 0#64 }

section
variable {s : State} {p : Nat} (hready : OscReady s)
include hready

/-- Every phase in range has an entry in WT, so its lookup raises neither fault. -/
theorem OscReady.lookup_readyTick (hp : p < Config.phiMax) : ReadyTick s (lookup p s) := by
  obtain ⟨hindex, haddr⟩ := hready.entryInside hp
  have hreg : p < 2 ^ 32 := hp.trans (by decide)
  rw [lookup_eq_lookupDone hindex haddr]
  exact {
    fault := rfl
    ready := { hready with }
    phase := (regOfNat_toNat hreg).trans_lt hp
    answered := .inl ⟨_, rfl⟩ }

/-- An increment below PHI_MAX wraps to a phase in range; only a Looping oscillator needs it. -/
theorem OscReady.oscTick_readyTick (hphase : s.osc.phase.toNat < Config.phiMax) : ReadyTick s (oscTick s) := by
  rcases oscTick_cases s with ⟨-, h⟩ | ⟨-, hp, h⟩ | ⟨-, hp, hl, h⟩ | ⟨-, -, -, h⟩
  · rw [h]
    exact { fault := rfl, ready := { hready with }, phase := hphase, answered := .inr rfl }
  · rw [h]
    exact hready.lookup_readyTick hp
  · rw [h]
    have hinc := hready.increment hl
    exact hready.lookup_readyTick (by simp only [advancedPhase] at *; omega)
  · rw [h]
    exact {
      fault := rfl
      ready := { hready with }
      phase := (by decide : (0 : Nat) < Config.phiMax)
      answered := .inr rfl }

end

/-! ### Events of a host that keeps the contract (R240 (1), (2)) -/

theorem runEvent_of_keepsContract {e : HostEvent} {s : State} (h : e.keepsContract s.params) :
    ∃ t, runEvent e s = .next t ∧ t.host = s.host ∧ t.params = s.params := by
  cases e with
  | command w ws =>
    obtain rfl : ws = [] := h
    obtain ⟨t, ht, -⟩ := runWord_answered w { s with overlap := [] }
    obtain ⟨-, hparams, hhost, -⟩ := runWord_frame ht
    exact ⟨t, (runCommand_nil w s).trans ht, hhost, hparams⟩
  | abandonedCommand w ws =>
    obtain rfl : ws = [] := h
    exact ⟨assertReset s, rfl, rfl, rfl⟩
  | writeWt write => exact ⟨_, landWrites_singleton h, rfl, rfl⟩
  | reset => exact ⟨assertReset s, rfl, rfl, rfl⟩

/-! ### The obligations -/

/-- Settles O24: words complete, reset always does, and the contract's writes go to entries that exist. -/
theorem contractKeepingHostNeverStops : Obligations.ContractKeepingHostNeverStops := by
  intro s e rest hhost hkeeps
  rw [step_event hhost]
  exact runEvent_of_keepsContract (s := { s with host := rest }) hkeeps

/-- Settles O39: a live block's tick is `oscTick`, which keeps a ready oscillator ready. -/
theorem readyOscillatorNeverFaults : Obligations.ReadyOscillatorNeverFaults := by
  intro s hlive hready hphase
  have h := hready.oscTick_readyTick hphase
  exact ⟨oscTick s, exec_oscTick_live hlive, h.fault, h.ready, h.phase, h.answered⟩

/-- Settles O21: a step with no event to take holds the state. -/
theorem idleBlockHoldsState : Obligations.IdleBlockHoldsState :=
  fun _ => step_idle

end Sys2Proof.Machine
end

section
/-! PROOFS. Reset and the order of commands (spec/70_reset_and_hazards.md R250 to R254): the state a reset leaves (O1),
reset in the place of a command (O2), the setters in either order (O46) and the first commands after a reset (O57). -/

namespace Sys2Proof.Machine

open Sys2Proof

/-! ### Reset as a step (R250, R252) -/

section
variable (s : State) (rest : List HostEvent)

theorem step_reset :
    step { s with host := .reset :: rest } = .next (assertReset { s with host := rest }) := rfl

/-- With no host write in progress, reset is all that is left of an abandoned command. -/
theorem step_abandonedCommand_nil (w : Command) :
    step { s with host := .abandonedCommand w [] :: rest } = step { s with host := .reset :: rest } := rfl

end

/-! ### The invariant's first two parts, from the registers alone -/

section
variable {s : State}

theorem RegInv.derivedAgree (h : RegInv s) : DerivedAgree s where
  alpha := h.osc.alpha
  delta := h.osc.delta
  ft := h.flt.ft
  qinv := h.flt.qinv

theorem RegInv.rangesHold (h : RegInv s) : RangesHold s where
  phase := h.osc.phase
  oscRate := h.osc.rate
  fltRate := h.flt.rate
  lfsr16 := h.lfsr16
  lfsr32 := h.lfsr32
  cause := h.fault.cause
  faultInfo := h.fault.info

/-- Reset needs nothing of the state before it for the registers to meet their invariant. -/
theorem assertReset_regInv (s : State) : RegInv (assertReset s) :=
  { resetWith_regInv s.params with }

end

/-! ### Setters in either order (R254) -/

section
variable {s : State} {status : Status} {result : Result} (h : s.fault.cause = 0#4)
include h

theorem respond_withOsc_live (o : OscRegs) : (respond status result (s.withOsc o)).fault.cause = 0#4 := h

theorem respond_withFlt_live (f : FltRegs) : (respond status result (s.withFlt f)).fault.cause = 0#4 := h

end

/-- Either order derives OSC_DELTA from the new frequency and the new rate: OSC_ALPHA holds its constant exactly. -/
theorem withFreq_withRate (o : OscRegs) (r f : MilliHertz) :
    (o.withRate r).withFreq f = (o.withFreq f).withRate r := by
  rw [OscRegs.withFreq, withRate_alpha_toNat]
  rfl

/-! ### What the units hold after reset (R253) -/

/-- A filter with nothing accumulated and FLT_FT = 0 passes its input to the high-pass, and so to the notch. -/
theorem tick_atReset (x : Sample) :
    FltRegs.atReset.tick x = { lp := 0, bp := 0, hp := sext16 x, notch := sext16 x } := by
  apply filterTick_eq
  case hlp => exact (by decide : filterLow .wrap .towardZero 0 0 0 = 0)
  case hhp =>
    calc filterHigh .wrap .towardZero 67108864 (sext16 x) 0 0
        = wrap16 (sext16 x - 0 - (67108864 * 0 : Int).tdiv 67108864) := filterHigh_wrap_towardZero ..
      _ = wrap16 (sext16 x) := by simp
      _ = sext16 x := wrap16_sext16 x
  case hbp =>
    calc filterBand .wrap .towardZero 0 0 (sext16 x)
        = wrap16 (0 + (0 * sext16 x).tdiv 67108864) := filterBand_wrap_towardZero ..
      _ = wrap16 0 := by simp
      _ = 0 := by decide
  case hnotch => exact (congrArg wrap16 (Int.add_zero _)).trans (wrap16_sext16 x)

theorem nextLfsr16_seed : nextLfsr16 Config.lfsr16Seed = 0xE270#16 := by decide

theorem nextLfsr32_seed : nextLfsr32 Config.lfsr32Seed = 0x80205673#32 := by decide

theorem sampleResult_noiseSample_after_seed : sampleResult (noiseSample 0x80205673#32) = 0x298C#64 := by decide

/-! ### The obligations -/

/-- Settles O2: an abandoned command steps as a reset does, and a step that is neither keeps the fault registers
(O15). -/
theorem resetAbandonsCommand : Obligations.ResetAbandonsCommand := by
  refine ⟨fun s w rest => ?_, fun s t hfault hstep hcleared => ?_⟩
  · exact ⟨assertReset { s with host := rest },
      (step_abandonedCommand_nil s rest w).trans (step_reset s rest), step_reset s rest, assertReset_response _⟩
  · by_contra hreset
    have hother : ∀ e rest, s.host = e :: rest → e ≠ .reset ∧ ∀ w ws, e ≠ .abandonedCommand w ws :=
      fun e rest hhost =>
        ⟨fun he => hreset ⟨e, rest, hhost, .inl he⟩, fun w ws he => hreset ⟨e, rest, hhost, .inr ⟨w, ws, he⟩⟩⟩
    obtain ⟨hsame, -⟩ := noSecondFault s t hfault hstep hother
    exact hfault (hsame ▸ hcleared)

/-- Settles O46: the setters write the same derived constants in either order. -/
theorem setterOrderDoesNotMatter : Obligations.SetterOrderDoesNotMatter := by
  intro s r f hlive hr
  constructor
  · refine ⟨_, runSeq_pair (exec_oscSetRate_live hlive hr)
      (exec_oscSetFreq_live (respond_withOsc_live hlive _) f), ?_⟩
    rw [respond_osc, withOsc_osc, withFreq_withRate]
    exact runSeq_pair (exec_oscSetFreq_live hlive f) (exec_oscSetRate_live (respond_withOsc_live hlive _) hr)
  · exact ⟨_, runSeq_pair (exec_fltSetRate_live hlive hr)
        (exec_fltSetFreq_live (respond_withFlt_live hlive _) f),
      runSeq_pair (exec_fltSetFreq_live hlive f) (exec_fltSetRate_live (respond_withFlt_live hlive _) hr)⟩

/-- Settles O1: the registers are those of `assertReset`, and meet their invariant. -/
theorem resetSetsEveryRegister : Obligations.ResetSetsEveryRegister := by
  intro s rest
  have hinv := assertReset_regInv { s with host := rest }
  exact ⟨_, step_reset s rest, ⟨rfl, rfl⟩, ⟨rfl, rfl, rfl, rfl, rfl, rfl, rfl, rfl, rfl, rfl⟩,
    ⟨rfl, rfl, rfl, readReg_fltNotch _, rfl, rfl, rfl, rfl⟩, ⟨rfl, rfl⟩, ⟨rfl, rfl⟩,
    hinv.derivedAgree, hinv.rangesHold⟩

/-- Settles O57: after reset the block is live, the oscillator stopped and the filter empty, and the LFSRs step from
their seeds. -/
theorem resetStateBehaviour : Obligations.ResetStateBehaviour := by
  intro p x
  have hlive : (State.resetWith p).fault.cause = 0#4 := rfl
  refine ⟨?_, ?_, ?_, ?_, ?_⟩
  · rw [exec_oscTick_live hlive, oscTick_stopped rfl]
    rfl
  · rw [exec_fltTick_live hlive, resetWith_flt, tick_atReset]
    simp only [filterResult, FltRegs.withOut, toSample_sext16]
    rfl
  · rw [exec_lfsr16Next_live hlive, resetWith_lfsr16, nextLfsr16_seed]
    rfl
  · rw [exec_lfsr32Next_live hlive, resetWith_lfsr32, nextLfsr32_seed]
    rfl
  · rw [exec_noiseTick_live hlive, resetWith_lfsr32, nextLfsr32_seed, sampleResult_noiseSample_after_seed]
    rfl

end Sys2Proof.Machine
end
